-- ==== Sys2Proof/Word.lean ====
section
/-!
DEFINITION. The value types of the block: a byte, the time draw, text.
Widths and bit numbering are 00_scope.md R8 and R9 (bit 0 is the least significant bit).
-/

namespace Sys2Proof

/-- "Byte" means an 8-bit value 0 to 255 (R9). -/
abbrev Byte := BitVec 8

/-- `now_ms : u64`, the host's time in milliseconds since the epoch (R11). -/
abbrev Millis := BitVec 64

/-- A string of 44_timestamp.md and 42_temperature.md: a sequence of characters indexed from 0. -/
abbrev Text := List Char

/-- The bytes of a candidate frame, offset 0 first (R29). Its length is checked where it is used. -/
abbrev Frame := List Byte

end Sys2Proof
end

