-- ==== Sys2Proof/Config.lean ====
section
/-!
DEFINITION. The implementation parameters (00_scope.md R6), their legality (R7), the derived widths (R8),
how TS_DECODE fails (R151), and the free values of the model.
-/

namespace Sys2Proof

/-- How a negative magnitude is formed (R6, R121; 90_conflicts.md C1). -/
inductive TempNegMode where
  | complement
  | signMagnitude
deriving DecidableEq, Repr

/-- Whether TS_DECODE checks the padding (R151; 92_eei_decisions.md D18). -/
inductive TsSuffixCheck where
  | strict
  | any
deriving DecidableEq, Repr

/-- The ways TS_DECODE fails (R151). -/
inductive FormatError where
  | badLength
  | badPadding
  | badPrefix
  | badField
deriving DecidableEq, Repr, Inhabited

/-- The parameters of R6 and R151, each with its default. `tempLsb` is the fraction numerator / denominator. -/
structure Config where
  syncMarker : Byte := 0xAA
  syncThreshold : Nat := 4
  frameLen : Nat := 256
  tempLsb : Nat × Nat := (1, 16)
  tempNegMode : TempNegMode := .complement
  tsPad : Text := ['0', '0', '0', '0', '0', '0']
  msgSingle : Byte := 0x01
  msgBulk : Byte := 0x02
  tsSuffixCheck : TsSuffixCheck := .strict
deriving DecidableEq, Repr

/-- The configuration "every rule and every test vector in this spec uses" (R6). -/
def Config.default : Config where

/-- Parameter legality, R7. `TEMP_NEG_MODE` is one of its two values by its type. -/
def Config.legal (c : Config) : Bool :=
  decide (1 ≤ c.syncThreshold ∧ c.syncThreshold ≤ 255
    ∧ 6 ≤ c.frameLen ∧ c.frameLen ≤ 65536
    ∧ c.tempLsb.1 * 16 = c.tempLsb.2 ∧ 0 < c.tempLsb.2
    ∧ c.msgSingle ≠ c.msgBulk)

/-- `ceil(log2(n))` for `1 ≤ n ≤ 2^17`: the least width whose range has `n` values. -/
def ceilLog2 (n : Nat) : Nat :=
  ((List.range 18).find? fun k => decide (n ≤ 2 ^ k)).getD 18

/-- Width of `SYNC_CNT`, R8: `ceil(log2(SYNC_THRESHOLD))`, at least 1. -/
def Config.syncCntWidth (c : Config) : Nat := max 1 (ceilLog2 c.syncThreshold)

/-- Width of `CURSOR`, R8: `ceil(log2(FRAME_LEN+1))`. -/
def Config.cursorWidth (c : Config) : Nat := ceilLog2 (c.frameLen + 1)

/-- FREE VALUE: what frame buffer cell `a` holds before anything has written it (R25, R33; 93 U1, U2: any value).
Log entry 4. -/
opaque Config.unwrittenCell : Nat → Byte

/-- FREE VALUE: what TS_DECODE returns, a time or a format error, for a text with a character outside ASCII. 44_timestamp.md
takes a string as ASCII characters and states no result for another. DESIGN CHOICE, log entry 16. -/
opaque Config.nonAsciiDecode : Text → Except FormatError Nat

end Sys2Proof
end

