-- ==== Sys2Proof/Syntax.lean ====
section
/-!
DEFINITION. The syntax: the phases, the input ports, the requests the host presents, and `Instr`, one constructor
per row of spec/opcode_table.json.
-/

namespace Sys2Proof

/-- The four encodings of the 2-bit `PHASE` register (R21). The encoding 3 is reserved and never reached (R66). -/
inductive Phase where
  | syncing
  | synced
  | parsingPayload
  | reserved
deriving DecidableEq, Repr

/-- One input byte with the draw `now_ms` of the step that consumes it (R11, R140). -/
structure InByte where
  data : Byte
  nowMs : Millis
deriving DecidableEq, Repr

/-- The input ports in one step (R195). `in_ready` is an output, constantly 1. -/
structure PortIn where
  rst : BitVec 1
  inValid : BitVec 1
  inData : Byte
  nowMs : Millis
deriving DecidableEq, Repr

/-- The operations that take a candidate frame: DECODE (R100), CHECKSUM (R101) and the message dispatch by the type
map of R65. -/
inductive FrameOp where
  | decode
  | checksum
  | message
deriving DecidableEq, Repr

/-- What the host presents to the machine for one step: an input event on the ports (R11, R196), the bytes of one of
the two other bit-level formats (R60), or a call of a host operation, which has no bit encoding (R69). -/
inductive Request where
  | port (p : PortIn)
  | frame (op : FrameOp) (bytes : List Byte) (nowMs : Millis)
  /-- The temperature register's bytes, in frame order: low (offset 3) then high (offset 4), R43. -/
  | temperature (bytes : List Byte)
  | tempRender (sign : BitVec 1) (mag : BitVec 11)
  | feed (chunk : List InByte)
  | poll (leftover : List InByte) (chunks : List (List InByte))
  | tsEncode (t : Int)
  | tsDecode (s : Text)
deriving DecidableEq, Repr

/-- The rows of the opcode table. A byte row carries the byte it consumes; only COMPLETE reads the time draw. -/
inductive Instr where
  /-- BYTE.SYNCING.MARK_COUNT, R80 -/
  | byteSyncingMarkCount (b : Byte)
  /-- BYTE.SYNCING.MARK_LOCK, R81 -/
  | byteSyncingMarkLock (b : Byte)
  /-- BYTE.SYNCING.OTHER, R82 -/
  | byteSyncingOther (b : Byte)
  /-- BYTE.SYNCED.MARK_SKIP, R83 -/
  | byteSyncedMarkSkip (b : Byte)
  /-- BYTE.SYNCED.START, R84 -/
  | byteSyncedStart (b : Byte)
  /-- BYTE.PARSING.APPEND, R85 -/
  | byteParsingAppend (b : Byte)
  /-- BYTE.PARSING.COMPLETE, R86 -/
  | byteParsingComplete (b : Byte) (nowMs : Millis)
  /-- IDLE, R87 -/
  | idle
  /-- RESET, R190 -/
  | reset
  /-- DECODE, R100 -/
  | decode (f : Frame) (nowMs : Millis)
  /-- CHECKSUM, R101 -/
  | checksum (f : Frame)
  /-- MSG_SINGLE, R103 -/
  | msgSingle (f : Frame) (nowMs : Millis)
  /-- MSG_BULK, R104 -/
  | msgBulk (f : Frame)
  /-- MSG_UNKNOWN, R105 -/
  | msgUnknown (f : Frame)
  /-- TEMP_DECODE, R121 -/
  | tempDecode (high low : Byte)
  /-- TEMP_RENDER, R123 -/
  | tempRender (sign : BitVec 1) (mag : BitVec 11)
  /-- FEED, R140, with one draw a byte -/
  | feed (chunk : List InByte)
  /-- POLL, R141 -/
  | poll (leftover : List InByte) (chunks : List (List InByte))
  /-- TS_ENCODE, R150 -/
  | tsEncode (t : Int)
  /-- TS_DECODE, R151 -/
  | tsDecode (s : Text)
deriving DecidableEq, Repr

end Sys2Proof
end

