-- ==== Sys2Proof/WellFormed.lean ====
section
/-!
DEFINITION. When a term of `Instr` is an instruction of the block: the checks that need the configuration alone
(the `match` and `mask` of its row). What a row further asks of the state is `rowSelected` (Decode.lean).
-/

namespace Sys2Proof

/-- Byte classes of R61: a marker equals `SYNC_MARKER`. -/
def isMarker (c : Config) (b : Byte) : Bool := b == c.syncMarker

/-- A `Frame` is a sequence of exactly `FRAME_LEN` bytes (R29). -/
def isFrame (c : Config) (f : Frame) : Bool := f.length == c.frameLen

/-- `type = f[0]` (R64). A frame is never empty (R7, R29), so the default is never read. -/
def typeOf (f : Frame) : Byte := f.headD 0

/-- The type of a single reading (R65). A frame of type `SYNC_MARKER` given to the decoder directly is unknown whatever the
parameters (R66; 93 U16). Log entry 20. -/
def isSingle (c : Config) (t : Byte) : Bool := t == c.msgSingle && t != c.syncMarker

/-- The type of a bulk transfer (R65), `SYNC_MARKER` excepted as for `isSingle`. Log entry 20. -/
def isBulk (c : Config) (t : Byte) : Bool := t == c.msgBulk && t != c.syncMarker

/-- The well-formedness of each row's operands, from the row's `match` and `mask`. -/
def wellFormed (c : Config) : Instr → Bool
  | .byteSyncingMarkCount b => isMarker c b
  | .byteSyncingMarkLock b => isMarker c b
  | .byteSyncingOther b => !isMarker c b
  | .byteSyncedMarkSkip b => isMarker c b
  | .byteSyncedStart b => !isMarker c b
  | .byteParsingAppend _ => true
  | .byteParsingComplete _ _ => true
  | .idle => true
  | .reset => true
  | .decode f _ => isFrame c f
  | .checksum f => isFrame c f
  | .msgSingle f _ => isFrame c f && isSingle c (typeOf f)
  | .msgBulk f => isFrame c f && isBulk c (typeOf f)
  | .msgUnknown f => isFrame c f && !isSingle c (typeOf f) && !isBulk c (typeOf f)
  | .tempDecode _ _ => true
  | .tempRender _ _ => true
  | .feed _ => true
  | .poll _ _ => true
  | .tsEncode _ => true
  | .tsDecode _ => true

end Sys2Proof
end

