-- ==== Sys2Proof/Decode.lean ====
section
/-!
DEFINITION. The decoder: from a request and the block's control state to an instruction, rejecting by name; the
encoder; and the reading of an opcode-table word. The formats are those of 30_encoding.md R60, R61, R65, R67, R69.
-/

namespace Sys2Proof

/-- Phase encodings, R21. -/
def phaseCode : Phase → BitVec 2
  | .syncing => 0
  | .synced => 1
  | .parsingPayload => 2
  | .reserved => 3

/-- The phase a 2-bit register value holds, R21. -/
def phaseOfCode (v : BitVec 2) : Phase :=
  if v = 0 then .syncing else if v = 1 then .synced else if v = 2 then .parsingPayload else .reserved

/-- What selects a row besides the input: the parameters and the control registers (R61). -/
structure Ctrl where
  cfg : Config
  phase : Phase
  syncCnt : Nat
  cursor : Nat
deriving DecidableEq, Repr

/-- Why a request is no instruction. Each of these is safe: the machine stops instead of guessing. -/
inductive DecodeError where
  /-- The parameters are not legal (R7). -/
  | illegalConfig
  /-- An input byte while `PHASE = 3` (R66, R88). -/
  | reservedPhase
  /-- A byte sequence that is not `FRAME_LEN` long given as a frame (R29). -/
  | notAFrame
  /-- A byte sequence that is not two bytes long given as a temperature register (R67). -/
  | notARegister
deriving DecidableEq, Repr

/-- The seven rows of the table in R61. -/
inductive ByteRow where
  | markCount
  | markLock
  | other
  | markSkip
  | start
  | append
  | complete
deriving DecidableEq, Repr

/-- The dispatch of R88 on one input byte, in the order of its pseudocode. -/
def selectRow (c : Ctrl) (b : Byte) : Except DecodeError ByteRow :=
  match c.phase with
  | .syncing =>
    if isMarker c.cfg b then
      if c.syncCnt + 1 < c.cfg.syncThreshold then .ok .markCount else .ok .markLock
    else .ok .other
  | .synced => if isMarker c.cfg b then .ok .markSkip else .ok .start
  | .parsingPayload => if c.cursor + 1 < c.cfg.frameLen then .ok .append else .ok .complete
  | .reserved => .error .reservedPhase

/-- The condition of each row of the table in R61: phase, byte class, further condition. The two rows whose further
condition is an equality take the complement of their neighbour's condition, as R88 does. DEDUCED, log entry 7. -/
def rowHolds (c : Ctrl) (b : Byte) : ByteRow → Bool
  | .markCount => decide (c.phase = .syncing ∧ isMarker c.cfg b = true ∧ c.syncCnt + 1 < c.cfg.syncThreshold)
  | .markLock => decide (c.phase = .syncing ∧ isMarker c.cfg b = true ∧ c.cfg.syncThreshold ≤ c.syncCnt + 1)
  | .other => decide (c.phase = .syncing ∧ isMarker c.cfg b = false)
  | .markSkip => decide (c.phase = .synced ∧ isMarker c.cfg b = true)
  | .start => decide (c.phase = .synced ∧ isMarker c.cfg b = false)
  | .append => decide (c.phase = .parsingPayload ∧ c.cursor + 1 < c.cfg.frameLen)
  | .complete => decide (c.phase = .parsingPayload ∧ c.cfg.frameLen ≤ c.cursor + 1)

/-- The instruction of a byte row. -/
def rowInstr (b : Byte) (nowMs : Millis) : ByteRow → Instr
  | .markCount => .byteSyncingMarkCount b
  | .markLock => .byteSyncingMarkLock b
  | .other => .byteSyncingOther b
  | .markSkip => .byteSyncedMarkSkip b
  | .start => .byteSyncedStart b
  | .append => .byteParsingAppend b
  | .complete => .byteParsingComplete b nowMs

/-- The byte row of an instruction, with its byte. -/
def rowOf : Instr → Option (ByteRow × Byte)
  | .byteSyncingMarkCount b => some (.markCount, b)
  | .byteSyncingMarkLock b => some (.markLock, b)
  | .byteSyncingOther b => some (.other, b)
  | .byteSyncedMarkSkip b => some (.markSkip, b)
  | .byteSyncedStart b => some (.start, b)
  | .byteParsingAppend b => some (.append, b)
  | .byteParsingComplete b _ => some (.complete, b)
  | .idle => none
  | .reset => none
  | .decode _ _ => none
  | .checksum _ => none
  | .msgSingle _ _ => none
  | .msgBulk _ => none
  | .msgUnknown _ => none
  | .tempDecode _ _ => none
  | .tempRender _ _ => none
  | .feed _ => none
  | .poll _ _ => none
  | .tsEncode _ => none
  | .tsDecode _ => none

/-- What a byte row asks of the control state; the other rows ask nothing of it. -/
def rowSelected (c : Ctrl) (i : Instr) : Bool :=
  match rowOf i with
  | some (row, b) => rowHolds c b row
  | none => true

/-- The port-level step of R196: reset wins over a valid byte, and no byte is IDLE. -/
def decodePort (c : Ctrl) (p : PortIn) : Except DecodeError Instr :=
  if p.rst = 1 then .ok .reset
  else if p.inValid = 1 then (selectRow c p.inData).map (rowInstr p.inData p.nowMs)
  else .ok .idle

/-- The three operations on a frame; a message is dispatched on byte 0 by the type map of R65, with R66. -/
def decodeFrameOp (c : Config) (f : Frame) (nowMs : Millis) : FrameOp → Instr
  | .decode => .decode f nowMs
  | .checksum => .checksum f
  | .message =>
    if isSingle c (typeOf f) then .msgSingle f nowMs
    else if isBulk c (typeOf f) then .msgBulk f
    else .msgUnknown f

/-- The decoder, total on every request. An illegal configuration gives no request a meaning (R7). -/
def decode (c : Ctrl) (r : Request) : Except DecodeError Instr :=
  if !c.cfg.legal then .error .illegalConfig
  else match r with
    | .port p => decodePort c p
    | .frame op f nowMs => if isFrame c.cfg f then .ok (decodeFrameOp c.cfg f nowMs op) else .error .notAFrame
    | .temperature [low, high] => .ok (.tempDecode high low)
    | .temperature _ => .error .notARegister
    | .tempRender sign mag => .ok (.tempRender sign mag)
    | .feed chunk => .ok (.feed chunk)
    | .poll leftover chunks => .ok (.poll leftover chunks)
    | .tsEncode t => .ok (.tsEncode t)
    | .tsDecode s => .ok (.tsDecode s)

/-- The ports while a byte is offered. -/
def bytePort (b : Byte) (nowMs : Millis) : Request := .port ⟨0, 1, b, nowMs⟩

/-- The encoder: the request that stands for an instruction. A row that does not read `now_ms` leaves it 0. -/
def encode : Instr → Request
  | .byteSyncingMarkCount b => bytePort b 0
  | .byteSyncingMarkLock b => bytePort b 0
  | .byteSyncingOther b => bytePort b 0
  | .byteSyncedMarkSkip b => bytePort b 0
  | .byteSyncedStart b => bytePort b 0
  | .byteParsingAppend b => bytePort b 0
  | .byteParsingComplete b nowMs => bytePort b nowMs
  | .idle => .port ⟨0, 0, 0, 0⟩
  | .reset => .port ⟨1, 0, 0, 0⟩
  | .decode f nowMs => .frame .decode f nowMs
  | .checksum f => .frame .checksum f 0
  | .msgSingle f nowMs => .frame .message f nowMs
  | .msgBulk f => .frame .message f 0
  | .msgUnknown f => .frame .message f 0
  | .tempDecode high low => .temperature [low, high]
  | .tempRender sign mag => .tempRender sign mag
  | .feed chunk => .feed chunk
  | .poll leftover chunks => .poll leftover chunks
  | .tsEncode t => .tsEncode t
  | .tsDecode s => .tsDecode s

/-- The encoded bytes of a request in one of the three bit-level formats of R60, first byte first; a host operation
has none (R69). -/
def requestBytes : Request → Option (List Byte)
  | .port p => if p.rst ≠ 1 ∧ p.inValid = 1 then some [p.inData] else none
  | .frame _ f _ => some f
  | .temperature bytes => some bytes
  | .tempRender _ _ => none
  | .feed _ => none
  | .poll _ _ => none
  | .tsEncode _ => none
  | .tsDecode _ => none

/-- The words of an instruction. -/
def encodeWords (i : Instr) : Option (List Byte) := requestBytes (encode i)

/-- The first `n` bytes of a number, least significant first. -/
def wordBytes (n w : Nat) : List Byte := (List.range n).map fun k => BitVec.ofNat 8 (w >>> (8 * k))

/-- A frame of type `t` whose other bytes are 0 but for the checksum byte, which makes it pass R101. -/
def passingFrame (c : Config) (t : Byte) : Frame := t :: (List.replicate (c.frameLen - 2) 0 ++ [t])

/-- The control state after reset (R33). -/
def ctrlAtReset : Ctrl := ⟨Config.default, .syncing, 0, 0⟩

/-- The request a word of the opcode table stands for, by the width of its format: no byte (0 bits), an input byte or a
message type (8), the temperature register (16), the leading bytes of a frame (more). The table gives the message types
0x01 and 0x02 a word of their own; any other 8-bit word is an input byte. DESIGN CHOICE, log entry 13. -/
def tableRequest (nbits w : Nat) : Option Request :=
  if 2 ^ nbits ≤ w then none
  else if nbits = 0 then some (encode .idle)
  else if nbits = 8 then
    let b := BitVec.ofNat 8 w
    if b = Config.default.msgSingle ∨ b = Config.default.msgBulk then
      some (.frame .message (passingFrame Config.default b) 0)
    else some (bytePort b 0)
  else if nbits = 16 then some (.temperature (wordBytes 2 w))
  else if nbits % 8 = 0 ∧ nbits ≤ 8 * Config.default.frameLen then
    some (.frame .decode (wordBytes Config.default.frameLen w) 0)
  else none

/-- The instruction the decoder reads from a word of the opcode table, in the control state after reset. -/
def decodeTableWord (nbits w : Nat) : Option Instr :=
  match tableRequest nbits w with
  | none => none
  | some r => (decode ctrlAtReset r).toOption

end Sys2Proof
end

