-- ==== Sys2Proof/Machine/State.lean ====
section
/-!
DEFINITION. The state of the machine as plain data, its output records, and the reasons a step can stop.
10_state.md; 60_exceptions.md R170 to R174.
-/

namespace Sys2Proof.Machine

/-- The sensor tag: the constant TEMPERATURE (R31, R126). -/
inductive SensorType where
  | temperature
deriving DecidableEq, Repr

/-- The unit tag: the constant CELSIUS (R31, R126). -/
inductive UnitTag where
  | celsius
deriving DecidableEq, Repr

/-- A decoded sample, field for field the table of R31. -/
structure Sample where
  sign : BitVec 1
  mag : BitVec 11
  rawHi : Byte
  rawLo : Byte
  tsMs : Millis
  sensorType : SensorType
  unit : UnitTag
deriving DecidableEq, Repr

/-- The events of R170. The codes 5 to 7 are reserved, so no constructor has them. -/
inductive FrameEvent where
  | evNone
  | evSample
  | evBulk
  | evUnknown
  | evCrcFail
deriving DecidableEq, Repr

/-- The decoder's verdict on one frame, R32. -/
structure Result where
  event : FrameEvent
  seq : BitVec 16
  sample : Option Sample
deriving DecidableEq, Repr

/-- The output of one step, R30. -/
structure Out where
  frame : Option Frame
  result : Option Result
deriving DecidableEq, Repr

/-- No frame and no result: the output of every step but a completing one (R30). -/
def Out.silent : Out := ⟨none, none⟩

/-- What a call of a host operation returns to its caller (R144, R173). -/
inductive Reply where
  | checksum (ok : Bool)
  | result (r : Result)
  | temperature (sign : BitVec 1) (mag : BitVec 11)
  | text (s : Text)
  | millis (t : Nat)
  | formatError (e : FormatError)
  | results (rs : List Result)
  | polled (samples : List Sample) (leftover : List Byte)
deriving DecidableEq, Repr

/-- The block has no fault (R93, R174: "A model gives the block's step no fault outcome"): no constructor. -/
inductive Fault where
deriving DecidableEq, Repr

/-- Why a step has no meaning. Each is safe: nothing can be proved of what lies beyond it. -/
inductive Refusal where
  /-- Raised by `exec` for an instruction not yet modelled; no arm does. Safe. -/
  | notModelled (mnemonic : String)
  /-- Raised by every instruction and by the decoder under parameters that are not legal (R7, R174). Safe. -/
  | illegalConfig
  /-- Raised by every instruction, and by the decoder for an input byte, in a state that holds `PHASE = 3`
  (R21, R66, R88, R174; 93 U3). Safe. -/
  | reservedPhase
  /-- Raised by the decoder and the frame operations for a byte sequence that is not `FRAME_LEN` long (R29). Safe. -/
  | notAFrame
  /-- Raised by the decoder for a temperature register that is not two bytes (R67). Safe. -/
  | notARegister
  /-- Raised by a byte row or a message row run where its own encoding condition does not hold (R61, R65); `step` never
  raises it for an input byte. Safe. -/
  | rowNotSelected
  /-- Raised by a buffer write at an offset of `FRAME_LEN` or more (R41). Safe. -/
  | bufferOffset
  /-- Raised by TS_ENCODE and TS_DECODE outside 1970 to 9999 (R150, R151, R153, R174). Safe. -/
  | tsOutOfDomain
deriving DecidableEq, Repr

/-- The frame buffer's cells that something has written: (offset, byte), offsets strictly rising. An unlisted offset has
no value. -/
abbrev Memory := List Host.Cell

/-- The state. `phase`, `syncCnt`, `cursor` and `fbuf` are the ParserState of R20; `out` is the output record of the last
step (R30); `cfg`, `reply` and `inputs` are the model's own fields (log entries 1, 2, 3). -/
structure State where
  cfg : Config
  phase : Phase
  syncCnt : Nat
  cursor : Nat
  fbuf : Memory
  out : Out
  reply : Option Reply
  inputs : List Request
deriving DecidableEq, Repr

/-- The state after RESET and at creation, R33 and R191, with the default parameters and nothing yet offered. -/
def State.reset : State where
  cfg := Config.default
  phase := .syncing
  syncCnt := 0
  cursor := 0
  fbuf := []
  out := Out.silent
  reply := none
  inputs := []

end Sys2Proof.Machine
end

