-- ==== Sys2Proof/Machine/Ops.lean ====
section
/-!
DEFINITION. The named operations over the frame buffer, the registers and the outputs, which every meaning is written
with. 20_memory.md; 00_scope.md R10; 60_exceptions.md R174.
-/

namespace Sys2Proof.Machine

/-- The outcome of one step of this machine. -/
abbrev StepOutcome := Host.Outcome State Fault Refusal

/-- The byte listed at offset `a`; `none` where nothing has written. -/
def Memory.read : Memory → Nat → Option Byte
  | [], _ => none
  | (k, v) :: rest, a => if k = a then some v else Memory.read rest a

/-- Set the byte at offset `a`, keeping the offsets strictly rising. -/
def Memory.write : Memory → Nat → Byte → Memory
  | [], a, v => [(a, v)]
  | (k, u) :: rest, a, v =>
    if a < k then (a, v) :: (k, u) :: rest
    else if a = k then (a, v) :: rest
    else (k, u) :: Memory.write rest a v

/-- The canonical form: offsets strictly rising. No entry can equal what an unlisted offset reads as, since that is no
value at all. -/
abbrev Memory.wf (m : Memory) : Prop := m.Pairwise fun c d => c.1 < d.1

/-- Every offset lies in the address space of R40. -/
abbrev Memory.inRange (frameLen : Nat) (m : Memory) : Prop := ∀ c ∈ m, c.1 < frameLen

/-- The control state the decoder reads. -/
def State.ctrl (s : State) : Ctrl := ⟨s.cfg, s.phase, s.syncCnt, s.cursor⟩

/-- `PHASE <- p` -/
def State.setPhase (s : State) (p : Phase) : State := { s with phase := p }

/-- `SYNC_CNT <- n` -/
def State.setSyncCnt (s : State) (n : Nat) : State := { s with syncCnt := n }

/-- `CURSOR <- n` -/
def State.setCursor (s : State) (n : Nat) : State := { s with cursor := n }

/-- Replace the frame buffer's contents. -/
def State.setFbuf (s : State) (m : Memory) : State := { s with fbuf := m }

/-- Put a step's output record out, and no return value. -/
def State.emit (s : State) (o : Out) : State := { s with out := o, reply := none }

/-- Return a value to the caller of a host operation, which is no step of the ports and has no output record. -/
def State.answer (s : State) (r : Reply) : State := { s with out := Out.silent, reply := some r }

/-- Leave the given requests for later steps. -/
def State.setInputs (s : State) (rs : List Request) : State := { s with inputs := rs }

/-- The byte a cell holds: the last one written, or the free value of a cell nothing has written (R25; 93 U1, U2). -/
def readCell (s : State) (a : Nat) : Byte := (Memory.read s.fbuf a).getD (Config.unwrittenCell a)

/-- `MemRead(0, n)`, R42: the bytes at offsets 0 to `n - 1`. -/
def memRead (s : State) (n : Nat) : List Byte := (List.range n).map (readCell s)

/-- `MemWrite(a, 1, v)`, R41, for `0 <= a <= FRAME_LEN-1`; a larger offset is refused. -/
def memWrite (a : Nat) (v : Byte) (s : State) : StepOutcome :=
  if a < s.cfg.frameLen then .next (s.setFbuf (Memory.write s.fbuf a v)) else .refused .bufferOffset

/-- Go on only in a state the spec gives a meaning: under legal parameters (R7: "A model refuses an illegal
configuration") and not in the reserved phase (R66: "A model refuses a state that holds it"; R174). Log entry 6. -/
def whenDefined (s : State) (k : StepOutcome) : StepOutcome :=
  if s.cfg.legal then
    if s.phase = .reserved then .refused .reservedPhase else k
  else .refused .illegalConfig

/-- Run a row where its encoding condition holds (R61, R65), and nowhere else. -/
def onRow (s : State) (cond : Bool) (k : StepOutcome) : StepOutcome :=
  whenDefined s (if cond then k else .refused .rowNotSelected)

/-- Run an operation on a candidate frame, which has exactly `FRAME_LEN` bytes (R29). -/
def onFrame (s : State) (f : Frame) (k : StepOutcome) : StepOutcome :=
  whenDefined s (if isFrame s.cfg f then k else .refused .notAFrame)

/-- `raise FormatError(e)` (R10, R173): the one thing that is raised, "surfaced to the caller". It is a return value of
the host-side call, and the machine goes on. Log entry 10. -/
def raiseFormatError (e : FormatError) (s : State) : StepOutcome := .next (s.answer (.formatError e))

/-- The refusal of a request that is no instruction. -/
def refusalOf : DecodeError → Refusal
  | .illegalConfig => .illegalConfig
  | .reservedPhase => .reservedPhase
  | .notAFrame => .notAFrame
  | .notARegister => .notARegister

/-- The request the next step consumes, and the state it runs in. No request is a step without a byte, IDLE (R11, R87).
Log entry 2. -/
def fetch (s : State) : Request × State :=
  match s.inputs with
  | [] => (encode .idle, s)
  | r :: rest => (r, s.setInputs rest)

end Sys2Proof.Machine
end

