-- ==== Sys2Proof/Machine/Operands.lean ====
section
/-!
DEFINITION. The values assembled from a frame: 30_encoding.md R63, R64, 20_memory.md R43, R47, and SEQ (R102).
-/

namespace Sys2Proof.Machine

/-- Byte `i` of a frame. Every use is below the frame's length, so the default is never read. -/
def byteAt (f : Frame) (i : Nat) : Byte := f.getD i 0

/-- `{hi, lo}` as 16 bits: both bytes zero-extended before the shift (R64). -/
def combine (hi lo : Byte) : BitVec 16 := (hi.setWidth 16 <<< 8) ||| lo.setWidth 16

/-- SEQ, R102: `zext_16(f[1]) | (zext_16(f[2]) << 8)`. -/
def seqOf (f : Frame) : BitVec 16 := combine (byteAt f 2) (byteAt f 1)

/-- The temperature register's low byte, offset 3 (R47). -/
def tempLow (f : Frame) : Byte := byteAt f 3

/-- The temperature register's high byte, offset 4 (R47). -/
def tempHigh (f : Frame) : Byte := byteAt f 4

/-- `value16`, R64: `((zext_16(f[4]) << 8) | zext_16(f[3])) & 0xFFFF`. -/
def value16 (f : Frame) : BitVec 16 := combine (tempHigh f) (tempLow f)

/-- `chk = f[FRAME_LEN-1]` (R64). -/
def chkOf (c : Config) (f : Frame) : Byte := byteAt f (c.frameLen - 1)

/-- The running XOR of a byte sequence, from 0x00 (R101). -/
def xorBytes (bs : List Byte) : Byte := bs.foldl (· ^^^ ·) 0

/-- `ChecksumOK(f)`, R101: the XOR of bytes 0 to `FRAME_LEN-2` against the last byte. -/
def checksumOk (c : Config) (f : Frame) : Bool := xorBytes (f.take (c.frameLen - 1)) == chkOf c f

end Sys2Proof.Machine
end

