-- ==== Sys2Proof/Machine/Flags.lean ====
section
/-!
DEFINITION. The flag-like values of R28: the sign flag of a temperature (42_temperature.md R121) and the event code of a
result (60_exceptions.md R170).
-/

namespace Sys2Proof.Machine

/-- `S`, bit 11 of the temperature register: `(value & 0x800) != 0` (R67, R121 step 2). -/
def signFlag (value : BitVec 16) : BitVec 1 := if value &&& 0x800 ≠ 0 then 1 else 0

/-- The register after R121 step 2: under COMPLEMENT a negative value is replaced by `(~value + 1) mod 2^16`. -/
def magnitudeSource (mode : TempNegMode) (value : BitVec 16) : BitVec 16 :=
  match mode with
  | .complement => if signFlag value = 1 then ~~~value + 1 else value
  | .signMagnitude => value

/-- R121 step 3: `mag := value & 0x7FF`, as an 11-bit value. -/
def magnitude (mode : TempNegMode) (value : BitVec 16) : BitVec 11 :=
  (magnitudeSource mode value &&& 0x7FF).setWidth 11

/-- The event codes of R170. -/
def eventCode : FrameEvent → BitVec 3
  | .evNone => 0
  | .evSample => 1
  | .evBulk => 2
  | .evUnknown => 3
  | .evCrcFail => 4

/-- The event of a code; 5 to 7 are reserved (R170, 93 U4). -/
def eventOfCode (v : BitVec 3) : Option FrameEvent :=
  [FrameEvent.evNone, .evSample, .evBulk, .evUnknown, .evCrcFail][v.toNat]?

end Sys2Proof.Machine
end

