-- ==== Sys2Proof/Machine/Temperature.lean ====
section
/-!
DEFINITION. The fixed-point temperature decoder and its rendering: 42_temperature.md. Rows TEMP_DECODE, TEMP_RENDER.
-/

namespace Sys2Proof.Machine

/-- `TempDecode(high, low)`, R121. -/
def tempDecode (c : Config) (high low : Byte) : BitVec 1 × BitVec 11 :=
  (signFlag (combine high low), magnitude c.tempNegMode (combine high low))

/-- The value in degrees Celsius, R122: `(-1)^sign * mag * TEMP_LSB`, exact. -/
def degrees (c : Config) (sign : BitVec 1) (mag : BitVec 11) : ℚ :=
  (-1) ^ sign.toNat * mag.toNat * ((c.tempLsb.1 : ℚ) / c.tempLsb.2)

/-- The character of a decimal digit. -/
def digitChar (n : Nat) : Char := Char.ofNat (48 + n % 10)

/-- `pad_n(k)`: the decimal of `k` with leading zeros to exactly `n` digits, for `k < 10^n` (44_timestamp.md). -/
def padDigits : Nat → Nat → Text
  | 0, _ => []
  | n + 1, k => padDigits n (k / 10) ++ [digitChar k]

/-- `decimal(k)` for `k < 1000`, with no leading zeros and "0" for 0 (R123); an integer part is at most 127. -/
def decimal (k : Nat) : Text :=
  if k < 10 then padDigits 1 k else if k < 100 then padDigits 2 k else padDigits 3 k

/-- `FRAC[k]`, R123: the exact decimal of `k/16` without trailing zeros, at least one digit. -/
def fracDigits (k : Nat) : Text :=
  match k with
  | 0 => ['0']
  | 1 => ['0', '6', '2', '5']
  | 2 => ['1', '2', '5']
  | 3 => ['1', '8', '7', '5']
  | 4 => ['2', '5']
  | 5 => ['3', '1', '2', '5']
  | 6 => ['3', '7', '5']
  | 7 => ['4', '3', '7', '5']
  | 8 => ['5']
  | 9 => ['5', '6', '2', '5']
  | 10 => ['6', '2', '5']
  | 11 => ['6', '8', '7', '5']
  | 12 => ['7', '5']
  | 13 => ['8', '1', '2', '5']
  | 14 => ['8', '7', '5']
  | 15 => ['9', '3', '7', '5']
  | _ => []

/-- `TempRender(sign, mag)`, R123. -/
def renderTemp (sign : BitVec 1) (mag : BitVec 11) : Text :=
  (if sign = 1 then '-' else '+') :: (decimal (mag.toNat / 16) ++ '.' :: fracDigits (mag.toNat % 16))

/-- The sensor tag's rendering "Temperature" (R126). -/
def sensorText : SensorType → Text
  | .temperature => ['T', 'e', 'm', 'p', 'e', 'r', 'a', 't', 'u', 'r', 'e']

/-- The unit tag's rendering "Celsius" (R126). -/
def unitText : UnitTag → Text
  | .celsius => ['C', 'e', 'l', 's', 'i', 'u', 's']

/-- TEMP_DECODE, R121. -/
def execTempDecode (high low : Byte) (s : State) : StepOutcome :=
  whenDefined s (.next (s.answer (.temperature (tempDecode s.cfg high low).1 (tempDecode s.cfg high low).2)))

/-- TEMP_RENDER, R123. -/
def execTempRender (sign : BitVec 1) (mag : BitVec 11) (s : State) : StepOutcome :=
  whenDefined s (.next (s.answer (.text (renderTemp sign mag))))

end Sys2Proof.Machine
end

