-- ==== Sys2Proof/Machine/FrameDecoder.lean ====
section
/-!
DEFINITION. The frame decoder and checksum validator: 41_frame_decoder.md. Rows DECODE, CHECKSUM, MSG_SINGLE, MSG_BULK,
MSG_UNKNOWN. The decoder is a pure function of one frame and the draw `now_ms`.
-/

namespace Sys2Proof.Machine

/-- The sample of a single reading, R103. -/
def singleSample (c : Config) (f : Frame) (nowMs : Millis) : Sample where
  sign := (tempDecode c (tempHigh f) (tempLow f)).1
  mag := (tempDecode c (tempHigh f) (tempLow f)).2
  rawHi := tempHigh f
  rawLo := tempLow f
  tsMs := nowMs
  sensorType := .temperature
  unit := .celsius

/-- `Single(f, seq, now_ms)`, R103. -/
def singleResult (c : Config) (f : Frame) (nowMs : Millis) : Result :=
  ⟨.evSample, seqOf f, some (singleSample c f nowMs)⟩

/-- The result of a bulk frame, R104. -/
def bulkResult (f : Frame) : Result := ⟨.evBulk, seqOf f, none⟩

/-- The result of a frame of any other type, R105. -/
def unknownResult (f : Frame) : Result := ⟨.evUnknown, seqOf f, none⟩

/-- The result of a frame that fails the checksum, R100, R101. -/
def crcFailResult (f : Frame) : Result := ⟨.evCrcFail, seqOf f, none⟩

/-- `Decode(f, now_ms)`, R100: the checksum first, then the type; a passing frame of type `SYNC_MARKER`, which only a direct
call can give, is unknown (R66; 93 U16). Under a legal configuration whose `MSG_SINGLE` or `MSG_BULK` equals `SYNC_MARKER`,
R65 and R100 would dispatch it; the model follows R66. DESIGN CHOICE, log entry 20. -/
def decodeFrame (c : Config) (f : Frame) (nowMs : Millis) : Result :=
  if !checksumOk c f then crcFailResult f
  else if isSingle c (typeOf f) then singleResult c f nowMs
  else if isBulk c (typeOf f) then bulkResult f
  else unknownResult f

/-- DECODE, R100. -/
def execDecode (f : Frame) (nowMs : Millis) (s : State) : StepOutcome :=
  onFrame s f (.next (s.answer (.result (decodeFrame s.cfg f nowMs))))

/-- CHECKSUM, R101. -/
def execChecksum (f : Frame) (s : State) : StepOutcome :=
  onFrame s f (.next (s.answer (.checksum (checksumOk s.cfg f))))

/-- MSG_SINGLE, R103: `f[0] = MSG_SINGLE`, no marker (R66), and the checksum passes. -/
def execMsgSingle (f : Frame) (nowMs : Millis) (s : State) : StepOutcome :=
  onFrame s f <| onRow s (checksumOk s.cfg f && isSingle s.cfg (typeOf f))
    (.next (s.answer (.result (singleResult s.cfg f nowMs))))

/-- MSG_BULK, R104: `f[0] = MSG_BULK`, no marker (R66), and the checksum passes. -/
def execMsgBulk (f : Frame) (s : State) : StepOutcome :=
  onFrame s f <| onRow s (checksumOk s.cfg f && isBulk s.cfg (typeOf f))
    (.next (s.answer (.result (bulkResult f))))

/-- MSG_UNKNOWN, R105: `f[0]` is neither, or a marker (R66), and the checksum passes. -/
def execMsgUnknown (f : Frame) (s : State) : StepOutcome :=
  onFrame s f <| onRow s (checksumOk s.cfg f && !isSingle s.cfg (typeOf f) && !isBulk s.cfg (typeOf f))
    (.next (s.answer (.result (unknownResult f))))

end Sys2Proof.Machine
end

