-- ==== Sys2Proof/Machine/Synchronizer.lean ====
section
/-!
DEFINITION. The frame synchronizer & assembler: 40_synchronizer.md, and RESET (70_reset_and_hazards.md R190). The seven
byte rows, IDLE and RESET.
-/

namespace Sys2Proof.Machine

/-- BYTE.SYNCING.MARK_COUNT, R80. -/
def execByteSyncingMarkCount (b : Byte) (s : State) : StepOutcome :=
  onRow s (rowHolds s.ctrl b .markCount) (.next ((s.setSyncCnt (s.syncCnt + 1)).emit Out.silent))

/-- BYTE.SYNCING.MARK_LOCK, R81. -/
def execByteSyncingMarkLock (b : Byte) (s : State) : StepOutcome :=
  onRow s (rowHolds s.ctrl b .markLock) (.next (((s.setPhase .synced).setSyncCnt 0).emit Out.silent))

/-- BYTE.SYNCING.OTHER, R82. -/
def execByteSyncingOther (b : Byte) (s : State) : StepOutcome :=
  onRow s (rowHolds s.ctrl b .other) (.next ((s.setSyncCnt 0).emit Out.silent))

/-- BYTE.SYNCED.MARK_SKIP, R83. -/
def execByteSyncedMarkSkip (b : Byte) (s : State) : StepOutcome :=
  onRow s (rowHolds s.ctrl b .markSkip) (.next (s.emit Out.silent))

/-- BYTE.SYNCED.START, R84. -/
def execByteSyncedStart (b : Byte) (s : State) : StepOutcome :=
  onRow s (rowHolds s.ctrl b .start)
    (memWrite 0 b (((s.setCursor 1).setPhase .parsingPayload).emit Out.silent))

/-- BYTE.PARSING.APPEND, R85. -/
def execByteParsingAppend (b : Byte) (s : State) : StepOutcome :=
  onRow s (rowHolds s.ctrl b .append)
    (memWrite s.cursor b ((s.setCursor (s.cursor + 1)).emit Out.silent))

/-- The frame a completing byte makes: `MemRead(0, FRAME_LEN-1) ++ [b]` (R86). -/
def completedFrame (b : Byte) (s : State) : Frame := memRead s (s.cfg.frameLen - 1) ++ [b]

/-- What a completing step puts out: the frame and the decoder's verdict on it (R86, R30). -/
def completionOut (b : Byte) (nowMs : Millis) (s : State) : Out :=
  ⟨some (completedFrame b s), some (decodeFrame s.cfg (completedFrame b s) nowMs)⟩

/-- BYTE.PARSING.COMPLETE, R86. -/
def execByteParsingComplete (b : Byte) (nowMs : Millis) (s : State) : StepOutcome :=
  onRow s (rowHolds s.ctrl b .complete)
    (memWrite (s.cfg.frameLen - 1) b
      ((((s.setCursor 0).setPhase .syncing).setSyncCnt 0).emit (completionOut b nowMs s)))

/-- IDLE, R87. -/
def execIdle (s : State) : StepOutcome := whenDefined s (.next (s.emit Out.silent))

/-- RESET, R190: the frame buffer keeps its contents. -/
def execReset (s : State) : StepOutcome :=
  whenDefined s (.next ((((s.setPhase .syncing).setSyncCnt 0).setCursor 0).emit Out.silent))

/-- The BYTE step, `Step(s, BYTE(b), now_ms)` of R88: the row the dispatch selects. -/
def byteStep (b : InByte) (s : State) : StepOutcome :=
  match selectRow s.ctrl b.data with
  | .error e => .refused (refusalOf e)
  | .ok .markCount => execByteSyncingMarkCount b.data s
  | .ok .markLock => execByteSyncingMarkLock b.data s
  | .ok .other => execByteSyncingOther b.data s
  | .ok .markSkip => execByteSyncedMarkSkip b.data s
  | .ok .start => execByteSyncedStart b.data s
  | .ok .append => execByteParsingAppend b.data s
  | .ok .complete => execByteParsingComplete b.data b.nowMs s

end Sys2Proof.Machine
end

