-- ==== Sys2Proof/Machine/Timestamp.lean ====
section
/-!
DEFINITION. The timestamp pair: 44_timestamp.md. Rows TS_ENCODE, TS_DECODE. The calendar is the proleptic Gregorian one
(R150, R151; 92_eei_decisions.md D28).
-/

namespace Sys2Proof.Machine

/-- The last millisecond of the domain, 9999-12-31T23:59:59.999 UTC (R153). -/
def tsMax : Nat := 253402300799999

/-- `CivilFromDays(days)`, R150: (year, month, day). -/
def civilFromDays (days : Nat) : Nat × Nat × Nat :=
  let z := days + 719468
  let era := z / 146097
  let doe := z - era * 146097
  let yoe := (doe - doe / 1460 + doe / 36524 - doe / 146096) / 365
  let doy := doe - (365 * yoe + yoe / 4 - yoe / 100)
  let mp := (5 * doy + 2) / 153
  let d := doy - (153 * mp + 2) / 5 + 1
  let m := if mp < 10 then mp + 3 else mp - 9
  (yoe + era * 400 + (if m ≤ 2 then 1 else 0), m, d)

/-- `DaysFromCivil(y, m, d)`, R151, for years from 1970 on. -/
def daysFromCivil (y m d : Nat) : Nat :=
  let y' := if m ≤ 2 then y - 1 else y
  let era := y' / 400
  let yoe := y' - era * 400
  let doy := (153 * (if m > 2 then m - 3 else m + 9) + 2) / 5 + d - 1
  let doe := yoe * 365 + yoe / 4 - yoe / 100 + doy
  era * 146097 + doe - 719468

/-- The leap-year rule of `Feb(y)`, R151. -/
def isLeap (y : Nat) : Bool := (y % 4 == 0 && y % 100 != 0) || y % 400 == 0

/-- `DaysInMonth(y, m)`, R151, for `1 <= m <= 12`. -/
def daysInMonth (y m : Nat) : Nat :=
  [31, if isLeap y then 29 else 28, 31, 30, 31, 30, 31, 31, 30, 31, 30, 31].getD (m - 1) 0

/-- The date part of R150's string, `yyyy-MM-dd`. -/
def dateText (y m d : Nat) : Text :=
  padDigits 4 y ++ '-' :: (padDigits 2 m ++ '-' :: padDigits 2 d)

/-- The time part of R150's string, `HH:mm:ss.SSS`, from the milliseconds of the day. -/
def timeText (msod : Nat) : Text :=
  padDigits 2 (msod / 3600000) ++ ':' :: (padDigits 2 (msod / 60000 % 60) ++ ':' ::
    (padDigits 2 (msod / 1000 % 60) ++ '.' :: padDigits 3 (msod % 1000)))

/-- The string of R150 for a time in the domain. -/
def tsText (c : Config) (t : Nat) : Text :=
  let ymd := civilFromDays (t / 86400000)
  dateText ymd.1 ymd.2.1 ymd.2.2 ++ 'T' :: (timeText (t % 86400000) ++ c.tsPad)

/-- `TsEncode(t)`, R150; `none` outside the domain of R153. -/
def encodeTimestamp (c : Config) (t : Int) : Option Text :=
  if 0 ≤ t ∧ t ≤ tsMax then some (tsText c t.toNat) else none

/-- The value of a decimal digit, if the character is one of '0' to '9'. -/
def digitVal (ch : Char) : Option Nat :=
  if 48 ≤ ch.toNat ∧ ch.toNat ≤ 57 then some (ch.toNat - 48) else none

/-- A number of digits read most significant first; `none` if some character is no digit. -/
def readDigits (s : Text) : Option Nat :=
  s.foldl (fun acc ch => do return 10 * (← acc) + (← digitVal ch)) (some 0)

/-- The characters `lo` to `lo + n - 1` of a string. -/
def slice (s : Text) (lo n : Nat) : Text := (s.drop lo).take n

/-- The date and time fields of R151. -/
structure Fields where
  y : Nat
  m : Nat
  d : Nat
  hh : Nat
  mm : Nat
  ss : Nat
  ms : Nat
deriving DecidableEq, Repr

/-- Whether the prefix has its separators where R151's pattern puts them. -/
def separatorsOk (p : Text) : Bool :=
  p[4]? == some '-' && p[7]? == some '-' && p[10]? == some 'T' && p[13]? == some ':' && p[16]? == some ':'
    && p[19]? == some '.'

/-- Match R151's 23-character pattern and read its fields. -/
def readFields (p : Text) : Option Fields := do
  let y ← readDigits (slice p 0 4)
  let m ← readDigits (slice p 5 2)
  let d ← readDigits (slice p 8 2)
  let hh ← readDigits (slice p 11 2)
  let mm ← readDigits (slice p 14 2)
  let ss ← readDigits (slice p 17 2)
  let ms ← readDigits (slice p 20 3)
  if separatorsOk p then some ⟨y, m, d, hh, mm, ss, ms⟩ else none

/-- The ranges R151 requires of the fields. -/
def fieldsOk (q : Fields) : Bool :=
  decide (1 ≤ q.m ∧ q.m ≤ 12 ∧ 1 ≤ q.d ∧ q.d ≤ daysInMonth q.y q.m ∧ q.hh ≤ 23 ∧ q.mm ≤ 59 ∧ q.ss ≤ 59)

/-- The milliseconds since the epoch of a date and time from 1970 on, R151. -/
def fieldsMillis (q : Fields) : Nat :=
  daysFromCivil q.y q.m q.d * 86400000 + q.hh * 3600000 + q.mm * 60000 + q.ss * 1000 + q.ms

/-- What TS_DECODE comes to: a time, an error raised, or a refusal outside the domain. -/
inductive TsOutcome where
  | millis (t : Nat)
  | formatError (e : FormatError)
  | outOfDomain
deriving DecidableEq, Repr

/-- The literal padding R151 compares with. -/
def tsZeros : Text := ['0', '0', '0', '0', '0', '0']

/-- `TsDecode(s)`, R151, its tests in the order of the pseudocode. -/
def decodeTimestamp (c : Config) (s : Text) : TsOutcome :=
  if s.length ≠ 29 then .formatError .badLength
  else if c.tsSuffixCheck = .strict ∧ s.drop 23 ≠ tsZeros then .formatError .badPadding
  else match readFields (s.take 23) with
    | none => .formatError .badPrefix
    | some q =>
      if !fieldsOk q then .formatError .badField
      else if q.y < 1970 then .outOfDomain
      else .millis (fieldsMillis q)

/-- Strings are sequences of ASCII characters (44_timestamp.md). -/
def isAscii (s : Text) : Bool := s.all fun ch => decide (ch.toNat < 128)

/-- What TS_DECODE comes to for any text: R151 for an ASCII string, the free value for another. Log entry 16. -/
def tsDecodeOutcome (c : Config) (s : Text) : TsOutcome :=
  if isAscii s then decodeTimestamp c s
  else match Config.nonAsciiDecode s with
    | .ok t => .millis t
    | .error e => .formatError e

/-- TS_ENCODE, R150: the model refuses outside the domain (R153). -/
def execTsEncode (t : Int) (s : State) : StepOutcome :=
  whenDefined s <| match encodeTimestamp s.cfg t with
    | some text => .next (s.answer (.text text))
    | none => .refused .tsOutOfDomain

/-- TS_DECODE, R151: a format error is raised to the caller; a year before 1970 is refused (R153). -/
def execTsDecode (text : Text) (s : State) : StepOutcome :=
  whenDefined s <| match tsDecodeOutcome s.cfg text with
    | .millis t => .next (s.answer (.millis t))
    | .formatError e => raiseFormatError e s
    | .outOfDomain => .refused .tsOutOfDomain

end Sys2Proof.Machine
end

