-- ==== Sys2Proof/Machine/HostInterface.lean ====
section
/-!
DEFINITION. The host interface: 43_host_interface.md. Rows FEED, POLL, and the view of a sample the host gets (R144).
FEED and POLL are defined entirely by the BYTE step and add no state.
-/

namespace Sys2Proof.Machine

/-- The BYTE step of each byte in order, with the output record of every step (R140). -/
def runBytes : List InByte → State → Host.Outcome (State × List Out) Fault Refusal
  | [], s => .next (s, [])
  | b :: bs, s =>
    match byteStep b s with
    | .fault r => .fault r
    | .refused r => .refused r
    | .next s₁ =>
      match runBytes bs s₁ with
      | .fault r => .fault r
      | .refused r => .refused r
      | .next (s₂, outs) => .next (s₂, s₁.out :: outs)

/-- The results among the outputs, in order (R140). -/
def resultsOf (outs : List Out) : List Result := outs.filterMap (·.result)

/-- The samples among the results, in order (R141). -/
def samplesOf (rs : List Result) : List Sample := rs.filterMap (·.sample)

/-- Run bytes and return a value made from the results. -/
def feedThen (bytes : List InByte) (reply : List Result → Reply) (s : State) : StepOutcome :=
  match runBytes bytes s with
  | .next (s', outs) => .next (s'.answer (reply (resultsOf outs)))
  | .fault r => .fault r
  | .refused r => .refused r

/-- FEED, R140. -/
def execFeed (chunk : List InByte) (s : State) : StepOutcome :=
  whenDefined s (feedThen chunk .results s)

/-- POLL, R141: the leftover first, then the chunks in order; the returned leftover is empty. -/
def execPoll (leftover : List InByte) (chunks : List (List InByte)) (s : State) : StepOutcome :=
  whenDefined s (feedThen (leftover ++ chunks.flatten) (fun rs => .polled (samplesOf rs) []) s)

/-- What a sample exposes to the host (R144). -/
structure SampleView where
  temperature : Text
  rawHi : Byte
  rawLo : Byte
  timestamp : Option Text
  sensor : Text
  unit : Text
deriving DecidableEq, Repr

/-- The host's view of a sample, R144. R144 does not say what a sample exposes whose `ts_ms` lies outside the domain of
TS_ENCODE, where R153 refuses that call alone: the model exposes all but the timestamp string. DESIGN CHOICE, log entry 21. -/
def sampleView (c : Config) (x : Sample) : SampleView where
  temperature := renderTemp x.sign x.mag
  rawHi := x.rawHi
  rawLo := x.rawLo
  timestamp := encodeTimestamp c x.tsMs.toNat
  sensor := sensorText x.sensorType
  unit := unitText x.unit

end Sys2Proof.Machine
end

