-- ==== Sys2Proof/Machine/Dispatch.lean ====
section
/-!
DEFINITION. The dispatch: one arm per row of the opcode table.
-/

namespace Sys2Proof.Machine

def exec (i : Instr) (s : State) : Host.Outcome State Fault Refusal :=
  match i with
  | .byteSyncingMarkCount b => Sys2Proof.Machine.execByteSyncingMarkCount b s
  | .byteSyncingMarkLock b => Sys2Proof.Machine.execByteSyncingMarkLock b s
  | .byteSyncingOther b => Sys2Proof.Machine.execByteSyncingOther b s
  | .byteSyncedMarkSkip b => Sys2Proof.Machine.execByteSyncedMarkSkip b s
  | .byteSyncedStart b => Sys2Proof.Machine.execByteSyncedStart b s
  | .byteParsingAppend b => Sys2Proof.Machine.execByteParsingAppend b s
  | .byteParsingComplete b nowMs => Sys2Proof.Machine.execByteParsingComplete b nowMs s
  | .idle => Sys2Proof.Machine.execIdle s
  | .reset => Sys2Proof.Machine.execReset s
  | .decode f nowMs => Sys2Proof.Machine.execDecode f nowMs s
  | .checksum f => Sys2Proof.Machine.execChecksum f s
  | .msgSingle f nowMs => Sys2Proof.Machine.execMsgSingle f nowMs s
  | .msgBulk f => Sys2Proof.Machine.execMsgBulk f s
  | .msgUnknown f => Sys2Proof.Machine.execMsgUnknown f s
  | .tempDecode high low => Sys2Proof.Machine.execTempDecode high low s
  | .tempRender sign mag => Sys2Proof.Machine.execTempRender sign mag s
  | .feed chunk => Sys2Proof.Machine.execFeed chunk s
  | .poll leftover chunks => Sys2Proof.Machine.execPoll leftover chunks s
  | .tsEncode t => Sys2Proof.Machine.execTsEncode t s
  | .tsDecode text => Sys2Proof.Machine.execTsDecode text s

end Sys2Proof.Machine
end

