-- ==== Sys2Proof/Machine/Step.lean ====
section
/-!
DEFINITION. One step of the machine: take the next request, decode it in the control state, run the instruction.
-/

namespace Sys2Proof.Machine

/-- One step, R11 and R88. -/
def step (s : State) : Host.Outcome State Fault Refusal :=
  match decode (fetch s).2.ctrl (fetch s).1 with
  | .ok i => exec i (fetch s).2
  | .error e => .refused (refusalOf e)

/-- `s` with the request a table word stands for offered next, in the control state after reset, in which
`decodeTableWord` reads it. A word no row has changes nothing. Log entry 13. -/
def State.withFetchWord (s : State) (nbits w : Nat) : State :=
  match tableRequest nbits w with
  | none => s
  | some r =>
    { s with
      cfg := ctrlAtReset.cfg, phase := ctrlAtReset.phase, syncCnt := ctrlAtReset.syncCnt,
      cursor := ctrlAtReset.cursor, inputs := r :: s.inputs }

end Sys2Proof.Machine
end

