-- ==== Sys2Proof/Machine/Ports.lean ====
section
/-!
DEFINITION. The output ports of 70_reset_and_hazards.md R195 as a function of the output record of a step.
-/

namespace Sys2Proof.Machine

/-- The output ports, R195. -/
structure PortOut where
  inReady : BitVec 1
  frameValid : BitVec 1
  frameData : Frame
  decValid : BitVec 1
  decEvent : BitVec 3
  decSeq : BitVec 16
  smpValid : BitVec 1
  smpSign : BitVec 1
  smpMag : BitVec 11
  smpRawHi : Byte
  smpRawLo : Byte
  smpTsMs : Millis
deriving DecidableEq, Repr

/-- The ports after a step whose output record is `o`. A port not flagged valid holds "any value" (R195; 93 U15): `any`
supplies it, and a statement holds for every `any`. Log entry 17. -/
def portOut (any : PortOut) (o : Out) : PortOut where
  inReady := 1
  frameValid := if o.frame.isSome then 1 else 0
  frameData := o.frame.getD any.frameData
  decValid := if o.frame.isSome then 1 else 0
  decEvent := eventCode (o.result.elim .evNone (·.event))
  decSeq := o.result.elim any.decSeq (·.seq)
  smpValid := if o.result.map (·.event) = some .evSample then 1 else 0
  smpSign := (o.result.bind (·.sample)).elim any.smpSign (·.sign)
  smpMag := (o.result.bind (·.sample)).elim any.smpMag (·.mag)
  smpRawHi := (o.result.bind (·.sample)).elim any.smpRawHi (·.rawHi)
  smpRawLo := (o.result.bind (·.sample)).elim any.smpRawLo (·.rawLo)
  smpTsMs := (o.result.bind (·.sample)).elim any.smpTsMs (·.tsMs)

end Sys2Proof.Machine
end

