-- ==== Sys2Proof/Safety.lean ====
section
/-!
DEFINITION. The terms claims are made in: the reachable-state invariant of 10_state.md R26, the launch premise of R191,
runs and their observation (R193), and equality up to the time draw (R142).
-/

namespace Sys2Proof.Safety

open Sys2Proof.Machine

/-- The cells 0 to `n - 1` have all been written. -/
abbrev written (m : Memory) (n : Nat) : Prop := ∀ a < n, (Memory.read m a).isSome = true

/-- What R26 says of the registers and the buffer in each phase. The encoding 3 is never reached (R21). -/
abbrev phaseInv (s : State) : Prop :=
  (s.phase = .syncing → s.syncCnt ≤ s.cfg.syncThreshold - 1 ∧ s.cursor = 0)
  ∧ (s.phase = .synced → s.syncCnt = 0 ∧ s.cursor = 0)
  ∧ (s.phase = .parsingPayload →
      s.syncCnt = 0 ∧ 1 ≤ s.cursor ∧ s.cursor ≤ s.cfg.frameLen - 1
        ∧ Memory.read s.fbuf 0 ≠ some s.cfg.syncMarker ∧ written s.fbuf s.cursor)
  ∧ s.phase ≠ .reserved

/-- The reachable-state invariant: legal parameters, R26, and the frame buffer in its canonical form within its address
space (R40). -/
abbrev StateInv (s : State) : Prop :=
  s.cfg.legal = true ∧ phaseInv s ∧ Memory.wf s.fbuf ∧ Memory.inRange s.cfg.frameLen s.fbuf

/-- The launch premise of R191, "with FBUF arbitrary" within its canonical form. -/
abbrev launch (s : State) : Prop :=
  s.cfg.legal = true ∧ s.phase = .syncing ∧ s.syncCnt = 0 ∧ s.cursor = 0
    ∧ Memory.wf s.fbuf ∧ Memory.inRange s.cfg.frameLen s.fbuf

/-- A run, R193: input events applied one step each, with the list of results in order. -/
def runEvents : List PortIn → State → Host.Outcome (State × List Result) Fault Refusal
  | [], s => .next (s, [])
  | p :: ps, s =>
    match step (s.setInputs [.port p]) with
    | .fault r => .fault r
    | .refused r => .refused r
    | .next s₁ =>
      match runEvents ps s₁ with
      | .fault r => .fault r
      | .refused r => .refused r
      | .next (s₂, rs) => .next (s₂, s₁.out.result.toList ++ rs)

/-- Feed chunks one after another, each a `runBytes` of its own, with the outputs joined (R142). -/
def runChunks : List (List InByte) → State → Host.Outcome (State × List Out) Fault Refusal
  | [], s => .next (s, [])
  | w :: ws, s =>
    match runBytes w s with
    | .fault r => .fault r
    | .refused r => .refused r
    | .next (s₁, outs) =>
      match runChunks ws s₁ with
      | .fault r => .fault r
      | .refused r => .refused r
      | .next (s₂, outs') => .next (s₂, outs ++ outs')

/-- A result with its time draw taken out. -/
def eraseTime (r : Result) : Result := { r with sample := r.sample.map fun x => { x with tsMs := 0 } }

/-- An output record with its time draw taken out. -/
def eraseOutTime (o : Out) : Out := { o with result := o.result.map eraseTime }

/-- The four parts of the ParserState, R20: the only state that outlives a step. -/
def parserState (s : State) : Phase × Nat × Nat × Memory := (s.phase, s.syncCnt, s.cursor, s.fbuf)

/-- The buffer offset a byte row stores its byte at, if it stores (R41: offset 0, or `CURSOR`). -/
def storeOffset (s : State) : ByteRow → Option Nat
  | .markCount => none
  | .markLock => none
  | .other => none
  | .markSkip => none
  | .start => some 0
  | .append => some s.cursor
  | .complete => some (s.cfg.frameLen - 1)

/-- The bytes of a stream, without the draws. -/
def dataOf (w : List InByte) : List Byte := w.map (·.data)

end Sys2Proof.Safety
end

