-- ==== Sys2Proof/Certificates/Slice0/Obligations.lean ====
section
/-!
DEFINITION. The statements for the provers. Each docstring names the rule of spec/ it formalises. A next state written
out in full is at once the instruction's result and its frame: every field not named is unchanged. The fields `out` and
`reply` carry the outputs of the last step (log entry 3).
-/

open Sys2Proof Sys2Proof.Machine Sys2Proof.Safety

/-! ## The byte rows, IDLE and RESET -/

/-- R80: a marker below the threshold adds one to `SYNC_CNT`, and nothing else changes; the result lies in
1 to `SYNC_THRESHOLD-1`; with a threshold of 1 the row is never selected. -/
def Obligations.MarkCountAddsOne : Prop :=
  (∀ (s : State) (b : Byte), s.cfg.legal = true → s.phase = .syncing → b = s.cfg.syncMarker →
    s.syncCnt + 1 < s.cfg.syncThreshold →
    exec (.byteSyncingMarkCount b) s
        = .next { s with syncCnt := s.syncCnt + 1, out := Out.silent, reply := none }
      ∧ 1 ≤ s.syncCnt + 1 ∧ s.syncCnt + 1 ≤ s.cfg.syncThreshold - 1)
  ∧ ∀ (c : Ctrl) (b : Byte), c.cfg.syncThreshold = 1 → selectRow c b ≠ .ok .markCount

/-- R81: the marker that reaches the threshold enters SYNCED and clears the count, `CURSOR` and `FBUF` unchanged; a run of
exactly `SYNC_THRESHOLD` markers is enough to lock. -/
def Obligations.MarkLockEntersSynced : Prop :=
  (∀ (s : State) (b : Byte), s.cfg.legal = true → s.phase = .syncing → b = s.cfg.syncMarker →
    s.syncCnt + 1 = s.cfg.syncThreshold →
    exec (.byteSyncingMarkLock b) s
      = .next { s with phase := .synced, syncCnt := 0, out := Out.silent, reply := none })
  ∧ ∀ (s : State) (w : List InByte), s.cfg.legal = true → s.phase = .syncing → s.syncCnt = 0 →
    w.length = s.cfg.syncThreshold → (∀ x ∈ w, x.data = s.cfg.syncMarker) →
    ∃ t, runBytes w s = .next (t, List.replicate w.length Out.silent)
      ∧ parserState t = (.synced, 0, s.cursor, s.fbuf)

/-- R82: a non-marker in SYNCING clears the count whatever it is, and nothing else changes; the run it breaks is lost, so the
next marker counts as the first. -/
def Obligations.OtherClearsCount : Prop :=
  (∀ (s : State) (b : Byte), s.cfg.legal = true → s.phase = .syncing → b ≠ s.cfg.syncMarker →
    exec (.byteSyncingOther b) s = .next { s with syncCnt := 0, out := Out.silent, reply := none })
  ∧ ∀ (s : State) (x y : InByte), s.cfg.legal = true → s.phase = .syncing → 1 < s.cfg.syncThreshold →
    x.data ≠ s.cfg.syncMarker → y.data = s.cfg.syncMarker →
    runBytes [x, y] s
      = .next ({ s with syncCnt := 1, out := Out.silent, reply := none }, [Out.silent, Out.silent])

/-- R83: a marker in SYNCED changes no state; any number of markers may follow the lock. -/
def Obligations.MarkSkipKeepsState : Prop :=
  (∀ (s : State) (b : Byte), s.cfg.legal = true → s.phase = .synced → b = s.cfg.syncMarker →
    exec (.byteSyncedMarkSkip b) s = .next { s with out := Out.silent, reply := none })
  ∧ ∀ (s : State) (w : List InByte), s.cfg.legal = true → s.phase = .synced →
    (∀ x ∈ w, x.data = s.cfg.syncMarker) →
    ∃ t, runBytes w s = .next (t, List.replicate w.length Out.silent) ∧ parserState t = parserState s

/-- R84: the first non-marker after the preamble is written to offset 0, `CURSOR` becomes 1 and the phase
PARSING_PAYLOAD; every other cell keeps its contents, and the frame is not complete. -/
def Obligations.StartStoresByteZero : Prop :=
  ∀ (s : State) (b : Byte), s.cfg.legal = true → s.phase = .synced → b ≠ s.cfg.syncMarker →
    ∃ m, exec (.byteSyncedStart b) s
        = .next { s with phase := .parsingPayload, cursor := 1, fbuf := m, out := Out.silent, reply := none }
      ∧ Memory.read m 0 = some b ∧ (∀ a, a ≠ 0 → Memory.read m a = Memory.read s.fbuf a)
      ∧ 1 < s.cfg.frameLen

/-- R85: a frame byte of any value is written at `CURSOR`, which advances by one to a value in 2 to `FRAME_LEN-1`; every
other cell keeps its contents. -/
def Obligations.AppendStoresAtCursor : Prop :=
  ∀ (s : State) (b : Byte), s.cfg.legal = true → s.phase = .parsingPayload → 1 ≤ s.cursor →
    s.cursor + 1 < s.cfg.frameLen →
    ∃ m, exec (.byteParsingAppend b) s
        = .next { s with cursor := s.cursor + 1, fbuf := m, out := Out.silent, reply := none }
      ∧ Memory.read m s.cursor = some b
      ∧ (∀ a, a ≠ s.cursor → Memory.read m a = Memory.read s.fbuf a)
      ∧ 2 ≤ s.cursor + 1 ∧ s.cursor + 1 ≤ s.cfg.frameLen - 1

/-- R86: the last byte completes the frame `FBUF[0..FRAME_LEN-2] ++ [b]`, which equals `FBUF` after the write; the frame and
the decoder's verdict on it are put out, whether or not it passes; the block returns to (SYNCING, 0, 0). A cell nothing
has written holds a free byte (log entry 4), whatever it is. -/
def Obligations.CompleteEmitsFrame : Prop :=
  ∀ (s : State) (b : Byte) (nowMs : Millis), s.cfg.legal = true → s.phase = .parsingPayload →
    s.cursor + 1 = s.cfg.frameLen →
    ∃ f t, exec (.byteParsingComplete b nowMs) s = .next t
      ∧ f = memRead s (s.cfg.frameLen - 1) ++ [b] ∧ f.length = s.cfg.frameLen
      ∧ t = { s with
          phase := .syncing, syncCnt := 0, cursor := 0, fbuf := t.fbuf,
          out := ⟨some f, some (decodeFrame s.cfg f nowMs)⟩, reply := none }
      ∧ memRead t s.cfg.frameLen = f
      ∧ Memory.read t.fbuf (s.cfg.frameLen - 1) = some b
      ∧ ∀ a, a ≠ s.cfg.frameLen - 1 → Memory.read t.fbuf a = Memory.read s.fbuf a

/-- R87: IDLE changes no state and puts nothing out, in each of the three phases. The reserved one is refused
(ReservedPhaseIsRefused). -/
def Obligations.IdleKeepsState : Prop :=
  ∀ s : State, s.cfg.legal = true → s.phase ≠ .reserved → exec .idle s = .next { s with out := Out.silent, reply := none }

/-- R190: RESET gives (SYNCING, 0, 0) with `FBUF` unchanged and no output, from any state outside the reserved phase; any two states reset alike up to
`FBUF` and what the host has still to offer; RESET twice is RESET once. -/
def Obligations.ResetGivesFreshState : Prop :=
  (∀ s : State, s.cfg.legal = true → s.phase ≠ .reserved →
    exec .reset s
      = .next { s with phase := .syncing, syncCnt := 0, cursor := 0, out := Out.silent, reply := none })
  ∧ (∀ s t t₁ t₂ : State, s.cfg = t.cfg → exec .reset s = .next t₁ → exec .reset t = .next t₂ →
    { t₁ with fbuf := t₂.fbuf, inputs := t₂.inputs } = t₂)
  ∧ ∀ s t : State, exec .reset s = .next t → exec .reset t = .next t

/-! ## The frame decoder -/

/-- R100, R102: DECODE of any frame answers one result with the little-endian sequence number; the checksum is tested
before the type; only a passing single reading has a sample. The machine's other state is unchanged. A passing
frame of type `SYNC_MARKER` is unknown (R66); that this holds where `MSG_SINGLE` or `MSG_BULK` has that value too is the
model's choice (log entry 20). -/
def Obligations.DecodeClassifiesFrame : Prop :=
  ∀ (s : State) (f : Frame) (nowMs : Millis), s.cfg.legal = true → s.phase ≠ .reserved → f.length = s.cfg.frameLen →
    ∃ r : Result, exec (.decode f nowMs) s = .next { s with out := Out.silent, reply := some (.result r) }
      ∧ r.seq.toNat = (byteAt f 1).toNat + 256 * (byteAt f 2).toNat
      ∧ (checksumOk s.cfg f = false → r.event = .evCrcFail ∧ r.sample = none)
      ∧ (checksumOk s.cfg f = true → byteAt f 0 = s.cfg.msgSingle → byteAt f 0 ≠ s.cfg.syncMarker →
          r = singleResult s.cfg f nowMs)
      ∧ (checksumOk s.cfg f = true → byteAt f 0 = s.cfg.msgBulk → byteAt f 0 ≠ s.cfg.syncMarker →
          r.event = .evBulk ∧ r.sample = none)
      ∧ (checksumOk s.cfg f = true →
          (byteAt f 0 ≠ s.cfg.msgSingle ∧ byteAt f 0 ≠ s.cfg.msgBulk) ∨ byteAt f 0 = s.cfg.syncMarker →
          r.event = .evUnknown ∧ r.sample = none)

/-- R101: CHECKSUM answers whether the XOR of bytes 0 to `FRAME_LEN-2` equals the last byte; the same as the XOR of all
bytes being 0; the order of the bytes does not matter; a mismatch makes DECODE's verdict `EV_CRC_FAIL` without a sample; an
all-zero frame passes. -/
def Obligations.ChecksumIsXorOfBytes : Prop :=
  (∀ (s : State) (f : Frame) (last : Byte) (body : List Byte), s.cfg.legal = true → s.phase ≠ .reserved → f.length = s.cfg.frameLen →
    f = body ++ [last] →
    ∃ ok, exec (.checksum f) s = .next { s with out := Out.silent, reply := some (.checksum ok) }
      ∧ (ok = true ↔ body.foldl (· ^^^ ·) 0 = last)
      ∧ (ok = true ↔ f.foldl (· ^^^ ·) 0 = 0)
      ∧ (∀ body' : List Byte, body'.Perm body → checksumOk s.cfg (body' ++ [last]) = ok)
      ∧ (ok = false → ∀ n, decodeFrame s.cfg f n = { event := .evCrcFail, seq := seqOf f, sample := none }))
  ∧ ∀ c : Config, c.legal = true → checksumOk c (List.replicate c.frameLen 0) = true

/-- R103: a passing frame of type `MSG_SINGLE` gives `EV_SAMPLE` with one sample: the temperature decode of bytes 4 (high)
and 3 (low), the two raw bytes, the draw and the tags; DECODE of that frame answers the same. A frame of type
`SYNC_MARKER` is UnknownTypeDropped's, whatever `MSG_SINGLE` is (log entry 20). -/
def Obligations.SingleReadingGivesSample : Prop :=
  ∀ (s : State) (f : Frame) (nowMs : Millis), s.cfg.legal = true → s.phase ≠ .reserved → f.length = s.cfg.frameLen →
    checksumOk s.cfg f = true → byteAt f 0 = s.cfg.msgSingle → byteAt f 0 ≠ s.cfg.syncMarker →
    exec (.msgSingle f nowMs) s
      = .next { s with
          out := Out.silent,
          reply := some (.result
            { event := .evSample, seq := seqOf f,
              sample := some
                { sign := (tempDecode s.cfg (byteAt f 4) (byteAt f 3)).1,
                  mag := (tempDecode s.cfg (byteAt f 4) (byteAt f 3)).2,
                  rawHi := byteAt f 4, rawLo := byteAt f 3, tsMs := nowMs,
                  sensorType := .temperature, unit := .celsius } }) }
      ∧ exec (.decode f nowMs) s = exec (.msgSingle f nowMs) s

/-- R104: a passing frame of type `MSG_BULK` gives `EV_BULK` and no sample; DECODE of that frame answers the same. A
frame of type `SYNC_MARKER` is UnknownTypeDropped's, whatever `MSG_BULK` is (log entry 20). -/
def Obligations.BulkGivesNoSample : Prop :=
  ∀ (s : State) (f : Frame) (nowMs : Millis), s.cfg.legal = true → s.phase ≠ .reserved → f.length = s.cfg.frameLen →
    checksumOk s.cfg f = true → byteAt f 0 = s.cfg.msgBulk → byteAt f 0 ≠ s.cfg.syncMarker →
    exec (.msgBulk f) s
      = .next { s with
          out := Out.silent, reply := some (.result { event := .evBulk, seq := seqOf f, sample := none }) }
      ∧ exec (.decode f nowMs) s = exec (.msgBulk f) s

/-- R105 and R66: a passing frame of any other type, or of type `SYNC_MARKER`, gives `EV_UNKNOWN` and no sample; DECODE of
that frame answers the same. That a marker is unknown where `MSG_SINGLE` or `MSG_BULK` has that value too is the model's
choice (log entry 20). -/
def Obligations.UnknownTypeDropped : Prop :=
  ∀ (s : State) (f : Frame) (nowMs : Millis), s.cfg.legal = true → s.phase ≠ .reserved → f.length = s.cfg.frameLen →
    checksumOk s.cfg f = true →
    (byteAt f 0 ≠ s.cfg.msgSingle ∧ byteAt f 0 ≠ s.cfg.msgBulk) ∨ byteAt f 0 = s.cfg.syncMarker →
    exec (.msgUnknown f) s
      = .next { s with
          out := Out.silent, reply := some (.result { event := .evUnknown, seq := seqOf f, sample := none }) }
      ∧ exec (.decode f nowMs) s = exec (.msgUnknown f) s

/-- R106: against a passing frame, another frame fails exactly when at some bit position an odd number of bytes differ; so
every one-bit change fails, the checksum byte included, and the same bit flipped in two bytes passes. -/
def Obligations.XorDetectsOddFlips : Prop :=
  ∀ (c : Config) (f f' : Frame), c.legal = true → f.length = c.frameLen → f'.length = c.frameLen →
    checksumOk c f = true →
    (checksumOk c f' = false ↔
      ∃ j < 8, ((List.range c.frameLen).countP
        fun i => (byteAt f i).getLsbD j != (byteAt f' i).getLsbD j) % 2 = 1)
    ∧ (∀ i < c.frameLen, ∀ j < 8, f' = f.set i (byteAt f i ^^^ (1#8 <<< j)) → checksumOk c f' = false)
    ∧ ∀ i < c.frameLen, ∀ k < c.frameLen, ∀ j < 8, i ≠ k →
        f' = (f.set i (byteAt f i ^^^ (1#8 <<< j))).set k (byteAt f k ^^^ (1#8 <<< j)) →
        checksumOk c f' = true

/-- R107 with R104, R105 and R103: beyond the checksum nothing of bytes 5 on is looked at. Two passing frames that agree on
bytes 0 to 4 have the same result. -/
def Obligations.PayloadNotInterpreted : Prop :=
  ∀ (c : Config) (f f' : Frame) (nowMs : Millis), c.legal = true → f.length = c.frameLen →
    f'.length = c.frameLen → checksumOk c f = true → checksumOk c f' = true → f.take 5 = f'.take 5 →
    decodeFrame c f nowMs = decodeFrame c f' nowMs

/-- R32, R170: a result's event is never `EV_NONE`, and its sample is present exactly when the event is `EV_SAMPLE`. -/
def Obligations.ResultHasSampleExactlyOnSample : Prop :=
  ∀ (c : Config) (f : Frame) (nowMs : Millis),
    (decodeFrame c f nowMs).event ≠ .evNone
    ∧ ((decodeFrame c f nowMs).sample.isSome = true ↔ (decodeFrame c f nowMs).event = .evSample)
    ∧ (decodeFrame c f nowMs).seq = seqOf f
    ∧ ∀ x, (decodeFrame c f nowMs).sample = some x → x.tsMs = nowMs

/-! ## The temperature decoder -/

/-- R121: TEMP_DECODE answers for every pair of bytes, by the closed form on `S = value[11]` and `M = value[10:0]`; bits
15:12 do not matter. -/
def Obligations.TempDecodeClosedForm : Prop :=
  ∀ (s : State) (high low : Byte), s.cfg.legal = true → s.phase ≠ .reserved →
    ∃ sign mag, exec (.tempDecode high low) s
        = .next { s with out := Out.silent, reply := some (.temperature sign mag) }
      ∧ sign.toNat = high.toNat / 8 % 2
      ∧ (sign.toNat = 0 → mag.toNat = (high.toNat * 256 + low.toNat) % 2048)
      ∧ (sign.toNat = 1 → s.cfg.tempNegMode = .complement →
          mag.toNat = (2048 - (high.toNat * 256 + low.toNat) % 2048) % 2048)
      ∧ (sign.toNat = 1 → s.cfg.tempNegMode = .signMagnitude →
          mag.toNat = (high.toNat * 256 + low.toNat) % 2048)

/-- R124: the two modes agree exactly when `S = 0` or `M` is 0 or 1024. -/
def Obligations.NegativeModesAgreeExactly : Prop :=
  ∀ (c : Config) (high low : Byte),
    tempDecode { c with tempNegMode := .complement } high low
        = tempDecode { c with tempNegMode := .signMagnitude } high low
      ↔ high.toNat / 8 % 2 = 0 ∨ (high.toNat * 256 + low.toNat) % 2048 = 0
        ∨ (high.toNat * 256 + low.toNat) % 2048 = 1024

/-- R125: under COMPLEMENT a sign-extended 12-bit register reads as its two's-complement value, but for 0xF800, which reads
as negative zero; and bit 11 is the sign of every register, whatever bits 15:12 are. -/
def Obligations.SignExtendedReadsTwosComplement : Prop :=
  ∀ (c : Config) (high low : Byte), c.tempNegMode = .complement →
    (-2048 < (high ++ low).toInt → (high ++ low).toInt ≤ 2047 →
      (-1) ^ (tempDecode c high low).1.toNat * ((tempDecode c high low).2.toNat : Int) = (high ++ low).toInt)
    ∧ (high ++ low = 0xF800#16 → tempDecode c high low = (1, 0))
    ∧ ((tempDecode c high low).1 = 1 ↔ (high ++ low).getLsbD 11 = true)

/-- R122: the value in degrees is exactly the sixteenth part of the signed magnitude, with integer part `mag[10:4]` (0 to
127) and fraction `mag[3:0] * 0.0625`; it lies in -127.9375 to 127.9375; the two zeros have the same value. -/
def Obligations.DegreesAreSixteenths : Prop :=
  ∀ (c : Config) (sign : BitVec 1) (mag : BitVec 11), c.legal = true →
    degrees c sign mag = (-1) ^ sign.toNat * mag.toNat / 16
    ∧ |degrees c sign mag| = ((mag.extractLsb 10 4).toNat : ℚ) + (mag.extractLsb 3 0).toNat * (0.0625 : ℚ)
    ∧ (mag.extractLsb 10 4).toNat ≤ 127
    ∧ -127.9375 ≤ degrees c sign mag ∧ degrees c sign mag ≤ 127.9375
    ∧ degrees c 1 0 = degrees c 0 0

/-- R123: TEMP_RENDER answers the explicit sign, the integer part without leading zeros, a point, and the exact decimal of
the sixteenths without trailing zeros but at least one digit. -/
def Obligations.RenderIsExactDecimal : Prop :=
  ∀ (s : State) (sign : BitVec 1) (mag : BitVec 11), s.cfg.legal = true → s.phase ≠ .reserved →
    ∃ ip frac : Text,
      exec (.tempRender sign mag) s
        = .next { s with
            out := Out.silent,
            reply := some (.text ((if sign = 1 then '-' else '+') :: (ip ++ '.' :: frac))) }
      ∧ readDigits ip = some (mag.toNat / 16)
      ∧ ip ≠ [] ∧ (ip.head? = some '0' → ip = ['0'])
      ∧ (∃ n, readDigits frac = some n ∧ n * 16 = mag.toNat % 16 * 10 ^ frac.length)
      ∧ frac ≠ [] ∧ (frac.getLast? = some '0' → frac = ['0'])

/-- Derived from R122 and R123: the string tells every reading apart, negative zero included. -/
def Obligations.RenderingIsInjective : Prop :=
  ∀ (sign sign' : BitVec 1) (mag mag' : BitVec 11),
    renderTemp sign mag = renderTemp sign' mag' → sign = sign' ∧ mag = mag'

/-! ## The timestamp pair -/

/-- R150: TS_ENCODE answers, on its whole domain, 23 characters in the pattern `yyyy-MM-ddTHH:mm:ss.SSS` that name a valid
UTC date and time of the year 1970 to 9999, followed by `TS_PAD`; the date and time are the ones `t` milliseconds after
the epoch, by the day count of R151. -/
def Obligations.TsEncodeNamesTheInstant : Prop :=
  ∀ (s : State) (t : Int), s.cfg.legal = true → s.phase ≠ .reserved → 0 ≤ t → t ≤ 253402300799999 →
    ∃ (p : Text) (q : Fields),
      exec (.tsEncode t) s = .next { s with out := Out.silent, reply := some (.text (p ++ s.cfg.tsPad)) }
      ∧ p.length = 23 ∧ readFields p = some q ∧ fieldsOk q = true ∧ 1970 ≤ q.y ∧ q.y ≤ 9999
      ∧ (fieldsMillis q : Int) = t

/-- R151 for ASCII strings: TS_DECODE tests length, padding (under STRICT), pattern and ranges in this order and raises the
error of the first that fails; a valid string from 1970 on gives its milliseconds, one before 1970 is refused. That the
error raised is a next state whose reply is the error is the model's reading of R10, R173 and R174 (log entry 10). -/
def Obligations.TsDecodeTestsInOrder : Prop :=
  ∀ (s : State) (x : Text), s.cfg.legal = true → s.phase ≠ .reserved → isAscii x = true →
    (x.length ≠ 29 →
      exec (.tsDecode x) s = .next { s with out := Out.silent, reply := some (.formatError .badLength) })
    ∧ (x.length = 29 → s.cfg.tsSuffixCheck = .strict → x.drop 23 ≠ ['0', '0', '0', '0', '0', '0'] →
      exec (.tsDecode x) s = .next { s with out := Out.silent, reply := some (.formatError .badPadding) })
    ∧ (x.length = 29 →
        (s.cfg.tsSuffixCheck = .strict → x.drop 23 = ['0', '0', '0', '0', '0', '0']) →
        (readFields (x.take 23) = none →
          exec (.tsDecode x) s = .next { s with out := Out.silent, reply := some (.formatError .badPrefix) })
        ∧ ∀ q : Fields, readFields (x.take 23) = some q →
          (fieldsOk q = false →
            exec (.tsDecode x) s = .next { s with out := Out.silent, reply := some (.formatError .badField) })
          ∧ (fieldsOk q = true → q.y < 1970 → exec (.tsDecode x) s = .refused .tsOutOfDomain)
          ∧ (fieldsOk q = true → 1970 ≤ q.y →
            exec (.tsDecode x) s
              = .next { s with
                  out := Out.silent,
                  reply := some (.millis (daysFromCivil q.y q.m q.d * 86400000 + q.hh * 3600000
                    + q.mm * 60000 + q.ss * 1000 + q.ms)) }))

/-- R152, first law: decoding what was encoded gives the time back, under either suffix check. -/
def Obligations.TsDecodeOfEncode : Prop :=
  ∀ (c : Config) (t : Nat) (x : Text), c.tsPad = ['0', '0', '0', '0', '0', '0'] → t ≤ 253402300799999 →
    encodeTimestamp c t = some x → decodeTimestamp c x = .millis t

/-- R152, second and third law: encoding what was decoded gives the string back, exactly when its last six characters are
"000000"; under STRICT they always are. -/
def Obligations.TsEncodeOfDecode : Prop :=
  ∀ (c : Config) (t : Nat) (x : Text), c.tsPad = ['0', '0', '0', '0', '0', '0'] →
    decodeTimestamp c x = .millis t →
    (encodeTimestamp c t = some x ↔ x.drop 23 = ['0', '0', '0', '0', '0', '0'])
    ∧ (c.tsSuffixCheck = .strict → encodeTimestamp c t = some x)

/-- R153: outside 1970 to 9999 the model refuses TS_ENCODE, and TS_DECODE of a valid string before 1970; inside, TS_ENCODE
is never refused. -/
def Obligations.TsDomainIsRefusedOutside : Prop :=
  ∀ s : State, s.cfg.legal = true → s.phase ≠ .reserved →
    (∀ t : Int, t < 0 ∨ 253402300799999 < t → exec (.tsEncode t) s = .refused .tsOutOfDomain)
    ∧ (∀ t : Int, 0 ≤ t → t ≤ 253402300799999 → ∃ s', exec (.tsEncode t) s = .next s')
    ∧ ∀ (x : Text) (q : Fields), isAscii x = true → x.length = 29 →
        (s.cfg.tsSuffixCheck = .strict → x.drop 23 = ['0', '0', '0', '0', '0', '0']) →
        readFields (x.take 23) = some q → fieldsOk q = true → q.y < 1970 →
        exec (.tsDecode x) s = .refused .tsOutOfDomain

/-! ## The host interface -/

/-- R140: FEED runs the BYTE step of each byte in order and returns the results in order, for every chunk and every phase
but the reserved one; a byte's step is `step` of the machine offered that byte; an empty chunk leaves the ParserState. -/
def Obligations.FeedRunsByteSteps : Prop :=
  ∀ (s : State), s.cfg.legal = true → s.phase ≠ .reserved →
    (∀ chunk : List InByte, ∃ t outs, runBytes chunk s = .next (t, outs) ∧ outs.length = chunk.length
      ∧ exec (.feed chunk) s
          = .next { t with out := Out.silent, reply := some (.results (outs.filterMap (·.result))) })
    ∧ exec (.feed []) s = .next { s with out := Out.silent, reply := some (.results []) }
    ∧ (∀ (b : InByte) (chunk : List InByte) (t t' : State) (outs : List Out),
        byteStep b s = .next t → runBytes chunk t = .next (t', outs) →
        runBytes (b :: chunk) s = .next (t', t.out :: outs))
    ∧ ∀ b : InByte, step (s.setInputs [bytePort b.data b.nowMs]) = byteStep b (s.setInputs [])

/-- R141: POLL feeds the leftover first and then the chunks in order, and returns the samples in order and an empty
leftover. -/
def Obligations.PollFeedsLeftoverThenChunks : Prop :=
  ∀ (s : State) (leftover : List InByte) (chunks : List (List InByte)), s.cfg.legal = true →
    s.phase ≠ .reserved →
    ∃ (t : State) (rs : List Result),
      exec (.feed (leftover ++ chunks.flatten)) s
        = .next { t with out := Out.silent, reply := some (.results rs) }
      ∧ exec (.poll leftover chunks) s
        = .next { t with out := Out.silent, reply := some (.polled (rs.filterMap (·.sample)) []) }

/-- R142: however a stream is split into chunks and whatever the draws, the state, the candidate frames and every field of
every result but `ts_ms` are the same; with the same draws everything is. A refusal comes in both or in neither. -/
def Obligations.RechunkingChangesOnlyTimes : Prop :=
  (∀ (s : State) (ws : List (List InByte)), runChunks ws s = runBytes ws.flatten s)
  ∧ ∀ (s : State) (ws : List (List InByte)) (w : List InByte), dataOf ws.flatten = dataOf w →
    (∀ t outs, runChunks ws s = .next (t, outs) →
      ∃ t' outs', runBytes w s = .next (t', outs') ∧ parserState t = parserState t'
        ∧ t.cfg = t'.cfg ∧ t.inputs = t'.inputs
        ∧ outs.map eraseOutTime = outs'.map eraseOutTime)
    ∧ ∀ r, runChunks ws s = .refused r → runBytes w s = .refused r

/-- R144: a sample shows the host its temperature string, raw bytes and the two constants, and, where its time lies in the
timestamp domain, its timestamp string. That one outside the domain shows all but the timestamp string is the model's
choice (log entry 21). -/
def Obligations.SampleShowsItsRenderings : Prop :=
  ∀ (c : Config) (x : Sample),
    ∃ ts : Option Text, sampleView c x
        = { temperature := renderTemp x.sign x.mag, rawHi := x.rawHi, rawLo := x.rawLo, timestamp := ts,
            sensor := "Temperature".toList, unit := "Celsius".toList }
      ∧ (x.tsMs.toNat ≤ 253402300799999 → ∃ text, ts = some text ∧ encodeTimestamp c x.tsMs.toNat = some text)
      ∧ (253402300799999 < x.tsMs.toNat → ts = none)

/-! ## Runs of the synchronizer -/

/-- R90, first item: from SYNCING or SYNCED, whatever came before, a run of at least `SYNC_THRESHOLD` markers followed by a
non-marker `x` makes `x` and the next `FRAME_LEN-1` bytes, of any values, one frame, which is decoded in its last step. -/
def Obligations.MarkerRunFramesWhatFollows : Prop :=
  ∀ (s : State) (pre body : List InByte) (x y : InByte), s.cfg.legal = true →
    s.phase = .syncing ∨ s.phase = .synced → s.cfg.syncThreshold ≤ pre.length →
    (∀ p ∈ pre, p.data = s.cfg.syncMarker) → x.data ≠ s.cfg.syncMarker →
    body.length = s.cfg.frameLen - 2 →
    ∃ t, runBytes (pre ++ x :: (body ++ [y])) s
        = .next (t, List.replicate (pre.length + 1 + body.length) Out.silent
            ++ [⟨some (x.data :: (dataOf body ++ [y.data])),
                some (decodeFrame s.cfg (x.data :: (dataOf body ++ [y.data])) y.nowMs)⟩])
      ∧ t.phase = .syncing ∧ t.syncCnt = 0 ∧ t.cursor = 0

/-- R90, second item: in PARSING_PAYLOAD every byte is data of the frame in progress, markers too, and after at most
`FRAME_LEN-1` bytes that frame ends and the phase is SYNCING. -/
def Obligations.FrameInProgressEnds : Prop :=
  ∀ (s : State) (w : List InByte) (y : InByte), s.cfg.legal = true → s.phase = .parsingPayload →
    1 ≤ s.cursor → s.cursor + w.length + 1 = s.cfg.frameLen →
    w.length + 1 ≤ s.cfg.frameLen - 1
    ∧ ∃ t, runBytes (w ++ [y]) s
        = .next (t, List.replicate w.length Out.silent
            ++ [⟨some (memRead s s.cursor ++ dataOf (w ++ [y])),
                some (decodeFrame s.cfg (memRead s s.cursor ++ dataOf (w ++ [y])) y.nowMs)⟩])
      ∧ t.phase = .syncing ∧ t.syncCnt = 0 ∧ t.cursor = 0

/-- R92: a stream in which no run of markers reaches `SYNC_THRESHOLD` never leaves SYNCING, emits nothing and writes no
cell; a first run counts from the `SYNC_CNT` it finds; after a non-marker the count is 0. -/
def Obligations.NoMarkerRunNoFrame : Prop :=
  ∀ (s : State) (w : List InByte), s.cfg.legal = true → s.phase = .syncing →
    ¬ List.replicate s.cfg.syncThreshold s.cfg.syncMarker
        <:+: (List.replicate s.syncCnt s.cfg.syncMarker ++ dataOf w) →
    ∃ t, runBytes w s = .next (t, List.replicate w.length Out.silent)
      ∧ t.phase = .syncing ∧ t.cursor = s.cursor ∧ t.fbuf = s.fbuf ∧ t.syncCnt < s.cfg.syncThreshold
      ∧ ∀ v x, w = v ++ [x] → x.data ≠ s.cfg.syncMarker → t.syncCnt = 0

/-- R91: after a completing step, which emits the first frame, bytes without a fresh run of `SYNC_THRESHOLD` markers emit
nothing, so a second frame sent at once is lost. -/
def Obligations.FramesAreNotChained : Prop :=
  ∀ (s t : State) (b : Byte) (nowMs : Millis) (w : List InByte),
    exec (.byteParsingComplete b nowMs) s = .next t →
    ¬ List.replicate s.cfg.syncThreshold s.cfg.syncMarker <:+: dataOf w →
    t.out.frame.isSome = true
    ∧ ∃ t', runBytes w t = .next (t', List.replicate w.length Out.silent) ∧ t'.phase = .syncing

/-- R26, last clause, and R44: the cells 0 to `CURSOR-1` hold the bytes accepted since the frame's first byte, in order. -/
def Obligations.FrameBytesKeepStreamOrder : Prop :=
  ∀ (s : State) (x : InByte) (w : List InByte), s.cfg.legal = true → s.phase = .synced →
    x.data ≠ s.cfg.syncMarker → w.length + 1 ≤ s.cfg.frameLen - 1 →
    ∃ t, runBytes (x :: w) s = .next (t, List.replicate (w.length + 1) Out.silent)
      ∧ t.phase = .parsingPayload ∧ t.cursor = w.length + 1
      ∧ ∀ i (h : i < (x :: w).length), Memory.read t.fbuf i = some ((x :: w)[i].data)

/-- R197: after a completing step the first cell written is cell 0, at the `(SYNC_THRESHOLD + 1)`-th byte at the
earliest; it is written there when that many markers and a non-marker come. -/
def Obligations.BufferSurvivesTheNextPreamble : Prop :=
  ∀ (s t : State) (b : Byte) (nowMs : Millis), exec (.byteParsingComplete b nowMs) s = .next t →
    (∀ w : List InByte, w.length ≤ s.cfg.syncThreshold →
      ∃ t' outs, runBytes w t = .next (t', outs) ∧ t'.fbuf = t.fbuf)
    ∧ ∀ (pre : List InByte) (x : InByte), pre.length = s.cfg.syncThreshold →
      (∀ p ∈ pre, p.data = s.cfg.syncMarker) → x.data ≠ s.cfg.syncMarker →
      ∃ t' outs, runBytes (pre ++ [x]) t = .next (t', outs) ∧ t'.fbuf = Memory.write t.fbuf 0 x.data

/-! ## Whole-machine rules -/

/-- R61 with R88: for a byte in a phase of the machine, the dispatch selects exactly the one row whose condition holds, at
every count and cursor; in a state that meets the invariant the two complementary conditions are the equalities of the
table. That in the other states MARK_LOCK and COMPLETE take R88's else is the model's choice (log entry 7). -/
def Obligations.ExactlyOneByteRow : Prop :=
  (∀ (c : Ctrl) (b : Byte), c.phase ≠ .reserved →
    ∃ row, selectRow c b = .ok row ∧ ∀ row', rowHolds c b row' = true ↔ row' = row)
  ∧ ∀ (s : State) (b : Byte), StateInv s →
    (selectRow s.ctrl b = .ok .markLock → s.syncCnt + 1 = s.cfg.syncThreshold)
    ∧ (selectRow s.ctrl b = .ok .complete → s.cursor + 1 = s.cfg.frameLen)

/-- R196 with R88: reset wins over a valid byte, which is not consumed; a valid byte runs the row the dispatch selects; no
byte is IDLE. In the reserved phase a byte is refused. -/
def Obligations.PortStepFollowsInputs : Prop :=
  ∀ (s : State) (p : PortIn) (rest : List Request), s.cfg.legal = true → s.inputs = .port p :: rest →
    (p.rst = 1 → step s = exec .reset { s with inputs := rest })
    ∧ (p.rst = 0 → p.inValid = 0 → step s = exec .idle { s with inputs := rest })
    ∧ (p.rst = 0 → p.inValid = 1 → s.phase ≠ .reserved →
        ∃ row, selectRow s.ctrl p.inData = .ok row
          ∧ step s = exec (rowInstr p.inData p.nowMs row) { s with inputs := rest })
    ∧ (p.rst = 0 → p.inValid = 1 → s.phase = .reserved → step s = .refused .reservedPhase)

/-- A step runs the decoded instruction in the state without the request it consumed; a request that is no instruction is
refused; with no request the step is IDLE (log entry 2). -/
def Obligations.StepRunsDecodedInstruction : Prop :=
  ∀ s : State,
    (∀ r rest i, s.inputs = r :: rest → decode s.ctrl r = .ok i →
      step s = exec i { s with inputs := rest })
    ∧ (∀ r rest e, s.inputs = r :: rest → decode s.ctrl r = .error e → step s = .refused (refusalOf e))
    ∧ (s.inputs = [] → step s = exec .idle s)

/-- A word of the opcode table that the decoder reads is what the next step runs (log entry 13). -/
def Obligations.TableWordRunsNext : Prop :=
  ∀ (s : State) (nbits w : Nat) (i : Instr), decodeTableWord nbits w = some i →
    step (s.withFetchWord nbits w)
      = exec i { s with cfg := Config.default, phase := .syncing, syncCnt := 0, cursor := 0 }

/-- Decode and encode agree: the request that encodes a well-formed instruction decodes to it, with every operand, in every
control state that selects its row. -/
def Obligations.DecodeOfEncodeIsInstruction : Prop :=
  ∀ (c : Ctrl) (i : Instr), c.cfg.legal = true → wellFormed c.cfg i = true → rowSelected c i = true →
    decode c (encode i) = .ok i

/-- The decoder yields only well-formed instructions whose row the control state selects, under legal parameters; and what
it yields has the request's bytes for its words. -/
def Obligations.DecodeYieldsWellFormed : Prop :=
  ∀ (c : Ctrl) (r : Request) (i : Instr), decode c r = .ok i →
    c.cfg.legal = true ∧ wellFormed c.cfg i = true ∧ rowSelected c i = true ∧ encodeWords i = requestBytes r

/-- Words written out from the spec's encodings decode to the instructions they stand for (R61, R65, R67). -/
def Obligations.SpecWordsDecode : Prop :=
  decode ⟨Config.default, .syncing, 3, 0⟩ (.port ⟨0b0, 0b1, 0b10101010, 0⟩)
      = .ok (.byteSyncingMarkLock 0b10101010)
  ∧ decode ⟨Config.default, .synced, 0, 0⟩ (.port ⟨0b0, 0b1, 0b00000001, 0⟩) = .ok (.byteSyncedStart 0b00000001)
  ∧ decode ⟨Config.default, .parsingPayload, 0, 255⟩ (.port ⟨0b0, 0b1, 0b00010100, 9⟩)
      = .ok (.byteParsingComplete 0b00010100 9)
  ∧ decode ⟨Config.default, .synced, 0, 0⟩ (.temperature [0b00010000, 0b00001000])
      = .ok (.tempDecode 0b00001000 0b00010000)

/-- R26: every step from a state that meets the invariant leads to one that does. What R26 says of the order of the bytes is
FrameBytesKeepStreamOrder. -/
def Obligations.StepKeepsInvariant : Prop :=
  ∀ s t : State, StateInv s → step s = .next t → StateInv t

/-- The reset state meets the invariant, and so does every launch state of R191. -/
def Obligations.LaunchMeetsInvariant : Prop :=
  StateInv State.reset ∧ launch State.reset ∧ ∀ s : State, launch s → StateInv s

/-- R93, R193: from a state that meets the invariant no input event stops the block, so every finite run goes to its end,
in a state that meets the invariant. -/
def Obligations.RunsOfEventsNeverStop : Prop :=
  ∀ (s : State) (ps : List PortIn), StateInv s → ∃ t rs, runEvents ps s = .next (t, rs) ∧ StateInv t

/-- R24: the only phase transitions of one event or call are the four of the rule; every other leaves `PHASE` unchanged.
FEED and POLL are sequences of such events. -/
def Obligations.PhaseChangesOnlyByFourRules : Prop :=
  ∀ (i : Instr) (s t : State), (∀ chunk, i ≠ .feed chunk) → (∀ l cs, i ≠ .poll l cs) → exec i s = .next t →
    t.phase = s.phase
    ∨ (s.phase = .syncing ∧ t.phase = .synced ∧ ∃ b, i = .byteSyncingMarkLock b)
    ∨ (s.phase = .synced ∧ t.phase = .parsingPayload ∧ ∃ b, i = .byteSyncedStart b)
    ∨ (s.phase = .parsingPayload ∧ t.phase = .syncing ∧ ∃ b n, i = .byteParsingComplete b n)
    ∨ (t.phase = .syncing ∧ i = .reset)

/-- R22, R23: which instructions write `SYNC_CNT` and which write `CURSOR`. -/
def Obligations.OnlyNamedRowsWriteCounters : Prop :=
  ∀ (i : Instr) (s t : State), (∀ chunk, i ≠ .feed chunk) → (∀ l cs, i ≠ .poll l cs) → exec i s = .next t →
    (t.syncCnt ≠ s.syncCnt →
      i = .reset ∨ (∃ b, i = .byteSyncingMarkCount b) ∨ (∃ b, i = .byteSyncingMarkLock b)
        ∨ (∃ b, i = .byteSyncingOther b) ∨ ∃ b n, i = .byteParsingComplete b n)
    ∧ (t.cursor ≠ s.cursor →
      i = .reset ∨ (∃ b, i = .byteSyncedStart b) ∨ (∃ b, i = .byteParsingAppend b)
        ∨ ∃ b n, i = .byteParsingComplete b n)

/-- R41 with the frame of the byte rows: a byte row stores its byte at its offset, which lies in the buffer, and every other
cell reads as before; a row that stores nothing leaves every cell as it was. -/
def Obligations.ByteRowsStoreOnlyTheirOffset : Prop :=
  ∀ (i : Instr) (row : ByteRow) (b : Byte) (s t : State), rowOf i = some (row, b) → exec i s = .next t →
    (∀ a, storeOffset s row = some a → a < s.cfg.frameLen ∧ Memory.read t.fbuf a = some b)
    ∧ ∀ a, storeOffset s row ≠ some a → Memory.read t.fbuf a = Memory.read s.fbuf a

/-- Frame of the operations that are no input event: the ParserState is unchanged, nothing is put out and a value is
returned (R20, R144). -/
def Obligations.CallsKeepParserState : Prop :=
  ∀ (i : Instr) (s t : State), rowOf i = none → i ≠ .idle → i ≠ .reset →
    (∀ chunk, i ≠ .feed chunk) → (∀ l cs, i ≠ .poll l cs) → exec i s = .next t →
    parserState t = parserState s ∧ t.out = Out.silent ∧ t.reply.isSome = true

/-- R27: no instruction changes the parameters. That none takes from what the host has still to offer, which only the fetch
does, is the model's choice (log entry 2). -/
def Obligations.ParametersNeverChange : Prop :=
  ∀ (i : Instr) (s t : State), exec i s = .next t → t.cfg = s.cfg ∧ t.inputs = s.inputs

/-- R7: under a configuration that breaks one of its conditions no instruction has a meaning, and no step; one that meets
them all is legal. That `TEMP_NEG_MODE` is one of its two values is its type. -/
def Obligations.IllegalConfigurationIsRefused : Prop :=
  ∀ (s : State) (c : Config), s.cfg = c →
    (¬ (1 ≤ c.syncThreshold ∧ c.syncThreshold ≤ 255 ∧ 6 ≤ c.frameLen ∧ c.frameLen ≤ 65536
        ∧ c.tempLsb.1 * 16 = c.tempLsb.2 ∧ c.tempLsb.2 ≠ 0 ∧ c.msgSingle ≠ c.msgBulk) →
      (∀ i : Instr, exec i s = .refused .illegalConfig) ∧ step s = .refused .illegalConfig)
    ∧ (1 ≤ c.syncThreshold ∧ c.syncThreshold ≤ 255 ∧ 6 ≤ c.frameLen ∧ c.frameLen ≤ 65536
        ∧ c.tempLsb.1 * 16 = c.tempLsb.2 ∧ c.tempLsb.2 ≠ 0 ∧ c.msgSingle ≠ c.msgBulk →
      c.legal = true)

/-- Where a form stops: a byte row outside its own condition (log entry 8), a frame operation on a sequence that is no frame
(R29) and a message row on a frame that fails the checksum or is of another type (log entries 9 and 20). The model's
choices. -/
def Obligations.FormsThatAreRefused : Prop :=
  ∀ s : State, s.cfg.legal = true → s.phase ≠ .reserved →
    (∀ (i : Instr) (row : ByteRow) (b : Byte), rowOf i = some (row, b) → rowHolds s.ctrl b row = false →
      exec i s = .refused .rowNotSelected)
    ∧ (∀ (f : Frame) (n : Millis), f.length ≠ s.cfg.frameLen →
      ∀ i ∈ [Instr.decode f n, .checksum f, .msgSingle f n, .msgBulk f, .msgUnknown f],
        exec i s = .refused .notAFrame)
    ∧ (∀ (f : Frame) (n : Millis), f.length = s.cfg.frameLen → checksumOk s.cfg f = false →
      ∀ i ∈ [Instr.msgSingle f n, .msgBulk f, .msgUnknown f], exec i s = .refused .rowNotSelected)
    ∧ ∀ (f : Frame) (n : Millis), f.length = s.cfg.frameLen →
      (byteAt f 0 ≠ s.cfg.msgSingle ∨ byteAt f 0 = s.cfg.syncMarker →
        exec (.msgSingle f n) s = .refused .rowNotSelected)
      ∧ (byteAt f 0 ≠ s.cfg.msgBulk ∨ byteAt f 0 = s.cfg.syncMarker →
        exec (.msgBulk f) s = .refused .rowNotSelected)
      ∧ (byteAt f 0 = s.cfg.msgSingle ∨ byteAt f 0 = s.cfg.msgBulk → byteAt f 0 ≠ s.cfg.syncMarker →
        exec (.msgUnknown f) s = .refused .rowNotSelected)

/-- R30: a step puts a frame out exactly when it is a completing step, and a result exactly when a frame; that result is the
decoder's verdict on that frame, with the draw of the step. That FEED and POLL, in which frames may complete, put none out
themselves but return the results is the model's choice (log entries 3 and 15). -/
def Obligations.OutputsExactlyOnCompletion : Prop :=
  ∀ (i : Instr) (s t : State), exec i s = .next t →
    (t.out.frame.isSome = true ↔ ∃ b n, i = .byteParsingComplete b n)
    ∧ (t.out.result.isSome = true ↔ t.out.frame.isSome = true)
    ∧ (∀ f, t.out.frame = some f → f.length = s.cfg.frameLen)
    ∧ ∀ b n, i = .byteParsingComplete b n → ∃ f, t.out = ⟨some f, some (decodeFrame s.cfg f n)⟩

/-- R195: what the output ports show after a step, whatever the ports not flagged valid hold (`any`). -/
def Obligations.PortsShowTheOutput : Prop :=
  ∀ (s t : State) (any : PortOut), step s = .next t →
    (portOut any t.out).inReady = 1
    ∧ ((portOut any t.out).frameValid = 1 ↔ t.out.frame.isSome = true)
    ∧ (∀ f, t.out.frame = some f → (portOut any t.out).frameData = f)
    ∧ (portOut any t.out).decValid = (portOut any t.out).frameValid
    ∧ ((portOut any t.out).decValid = 0 → (portOut any t.out).decEvent = 0)
    ∧ (∀ r, t.out.result = some r →
        (portOut any t.out).decEvent = eventCode r.event ∧ (portOut any t.out).decEvent ≠ 0
          ∧ (portOut any t.out).decSeq = r.seq)
    ∧ ((portOut any t.out).smpValid = 1 ↔ (portOut any t.out).decEvent = 1)
    ∧ ∀ r x, t.out.result = some r → r.sample = some x →
        (portOut any t.out).smpSign = x.sign ∧ (portOut any t.out).smpMag = x.mag
          ∧ (portOut any t.out).smpRawHi = x.rawHi ∧ (portOut any t.out).smpRawLo = x.rawLo
          ∧ (portOut any t.out).smpTsMs = x.tsMs

/-- R8: in every state that meets the invariant, `SYNC_CNT` and `CURSOR` fit their registers, which are 2 and 9 bits wide at
the default. -/
def Obligations.CountersFitTheirRegisters : Prop :=
  (∀ s : State, StateInv s → s.syncCnt < 2 ^ s.cfg.syncCntWidth ∧ s.cursor < 2 ^ s.cfg.cursorWidth)
  ∧ Config.default.syncCntWidth = 2 ∧ Config.default.cursorWidth = 9

/-- TS_DECODE of a text that is not ASCII completes, and returns a time or a format error: the free value
`Config.nonAsciiDecode`, whatever it is. The spec states no result there; that the call returns one is the model's choice
(log entry 16). -/
def Obligations.NonAsciiTextHasFreeResult : Prop :=
  ∀ (s : State) (x : Text), s.cfg.legal = true → s.phase ≠ .reserved → isAscii x = false →
    (∃ t, Config.nonAsciiDecode x = .ok t
      ∧ exec (.tsDecode x) s = .next { s with out := Out.silent, reply := some (.millis t) })
    ∨ ∃ e, Config.nonAsciiDecode x = .error e
      ∧ exec (.tsDecode x) s = .next { s with out := Out.silent, reply := some (.formatError e) }

/-- R66, R174: in a state that holds the reserved phase every instruction is refused, a step on the ports is refused, and no
step at all has a next state. -/
def Obligations.ReservedPhaseIsRefused : Prop :=
  ∀ s : State, s.cfg.legal = true → s.phase = .reserved →
    (∀ i : Instr, exec i s = .refused .reservedPhase)
    ∧ (∀ p rest, s.inputs = .port p :: rest → step s = .refused .reservedPhase)
    ∧ (s.inputs = [] → step s = .refused .reservedPhase)
    ∧ ∀ t, step s ≠ .next t
end

