-- ==== Sys2Proof/Laws/State.lean ====
section
/-!
SUPPORT. One lemma per field per update of State, and the fields of the reset state, all by rfl.
-/

namespace Sys2Proof.Machine

variable (s : State)

@[simp] theorem State.setPhase_cfg (p : Phase) : (s.setPhase p).cfg = s.cfg := rfl
@[simp] theorem State.setPhase_phase (p : Phase) : (s.setPhase p).phase = p := rfl
@[simp] theorem State.setPhase_syncCnt (p : Phase) : (s.setPhase p).syncCnt = s.syncCnt := rfl
@[simp] theorem State.setPhase_cursor (p : Phase) : (s.setPhase p).cursor = s.cursor := rfl
@[simp] theorem State.setPhase_fbuf (p : Phase) : (s.setPhase p).fbuf = s.fbuf := rfl
@[simp] theorem State.setPhase_out (p : Phase) : (s.setPhase p).out = s.out := rfl
@[simp] theorem State.setPhase_reply (p : Phase) : (s.setPhase p).reply = s.reply := rfl
@[simp] theorem State.setPhase_inputs (p : Phase) : (s.setPhase p).inputs = s.inputs := rfl

@[simp] theorem State.setSyncCnt_cfg (n : Nat) : (s.setSyncCnt n).cfg = s.cfg := rfl
@[simp] theorem State.setSyncCnt_phase (n : Nat) : (s.setSyncCnt n).phase = s.phase := rfl
@[simp] theorem State.setSyncCnt_syncCnt (n : Nat) : (s.setSyncCnt n).syncCnt = n := rfl
@[simp] theorem State.setSyncCnt_cursor (n : Nat) : (s.setSyncCnt n).cursor = s.cursor := rfl
@[simp] theorem State.setSyncCnt_fbuf (n : Nat) : (s.setSyncCnt n).fbuf = s.fbuf := rfl
@[simp] theorem State.setSyncCnt_out (n : Nat) : (s.setSyncCnt n).out = s.out := rfl
@[simp] theorem State.setSyncCnt_reply (n : Nat) : (s.setSyncCnt n).reply = s.reply := rfl
@[simp] theorem State.setSyncCnt_inputs (n : Nat) : (s.setSyncCnt n).inputs = s.inputs := rfl

@[simp] theorem State.setCursor_cfg (n : Nat) : (s.setCursor n).cfg = s.cfg := rfl
@[simp] theorem State.setCursor_phase (n : Nat) : (s.setCursor n).phase = s.phase := rfl
@[simp] theorem State.setCursor_syncCnt (n : Nat) : (s.setCursor n).syncCnt = s.syncCnt := rfl
@[simp] theorem State.setCursor_cursor (n : Nat) : (s.setCursor n).cursor = n := rfl
@[simp] theorem State.setCursor_fbuf (n : Nat) : (s.setCursor n).fbuf = s.fbuf := rfl
@[simp] theorem State.setCursor_out (n : Nat) : (s.setCursor n).out = s.out := rfl
@[simp] theorem State.setCursor_reply (n : Nat) : (s.setCursor n).reply = s.reply := rfl
@[simp] theorem State.setCursor_inputs (n : Nat) : (s.setCursor n).inputs = s.inputs := rfl

@[simp] theorem State.setFbuf_cfg (m : Memory) : (s.setFbuf m).cfg = s.cfg := rfl
@[simp] theorem State.setFbuf_phase (m : Memory) : (s.setFbuf m).phase = s.phase := rfl
@[simp] theorem State.setFbuf_syncCnt (m : Memory) : (s.setFbuf m).syncCnt = s.syncCnt := rfl
@[simp] theorem State.setFbuf_cursor (m : Memory) : (s.setFbuf m).cursor = s.cursor := rfl
@[simp] theorem State.setFbuf_fbuf (m : Memory) : (s.setFbuf m).fbuf = m := rfl
@[simp] theorem State.setFbuf_out (m : Memory) : (s.setFbuf m).out = s.out := rfl
@[simp] theorem State.setFbuf_reply (m : Memory) : (s.setFbuf m).reply = s.reply := rfl
@[simp] theorem State.setFbuf_inputs (m : Memory) : (s.setFbuf m).inputs = s.inputs := rfl

@[simp] theorem State.emit_cfg (o : Out) : (s.emit o).cfg = s.cfg := rfl
@[simp] theorem State.emit_phase (o : Out) : (s.emit o).phase = s.phase := rfl
@[simp] theorem State.emit_syncCnt (o : Out) : (s.emit o).syncCnt = s.syncCnt := rfl
@[simp] theorem State.emit_cursor (o : Out) : (s.emit o).cursor = s.cursor := rfl
@[simp] theorem State.emit_fbuf (o : Out) : (s.emit o).fbuf = s.fbuf := rfl
@[simp] theorem State.emit_out (o : Out) : (s.emit o).out = o := rfl
@[simp] theorem State.emit_reply (o : Out) : (s.emit o).reply = none := rfl
@[simp] theorem State.emit_inputs (o : Out) : (s.emit o).inputs = s.inputs := rfl

@[simp] theorem State.answer_cfg (r : Reply) : (s.answer r).cfg = s.cfg := rfl
@[simp] theorem State.answer_phase (r : Reply) : (s.answer r).phase = s.phase := rfl
@[simp] theorem State.answer_syncCnt (r : Reply) : (s.answer r).syncCnt = s.syncCnt := rfl
@[simp] theorem State.answer_cursor (r : Reply) : (s.answer r).cursor = s.cursor := rfl
@[simp] theorem State.answer_fbuf (r : Reply) : (s.answer r).fbuf = s.fbuf := rfl
@[simp] theorem State.answer_out (r : Reply) : (s.answer r).out = Out.silent := rfl
@[simp] theorem State.answer_reply (r : Reply) : (s.answer r).reply = some r := rfl
@[simp] theorem State.answer_inputs (r : Reply) : (s.answer r).inputs = s.inputs := rfl

@[simp] theorem State.setInputs_cfg (rs : List Request) : (s.setInputs rs).cfg = s.cfg := rfl
@[simp] theorem State.setInputs_phase (rs : List Request) : (s.setInputs rs).phase = s.phase := rfl
@[simp] theorem State.setInputs_syncCnt (rs : List Request) : (s.setInputs rs).syncCnt = s.syncCnt := rfl
@[simp] theorem State.setInputs_cursor (rs : List Request) : (s.setInputs rs).cursor = s.cursor := rfl
@[simp] theorem State.setInputs_fbuf (rs : List Request) : (s.setInputs rs).fbuf = s.fbuf := rfl
@[simp] theorem State.setInputs_out (rs : List Request) : (s.setInputs rs).out = s.out := rfl
@[simp] theorem State.setInputs_reply (rs : List Request) : (s.setInputs rs).reply = s.reply := rfl
@[simp] theorem State.setInputs_inputs (rs : List Request) : (s.setInputs rs).inputs = rs := rfl

@[simp] theorem State.ctrl_cfg : s.ctrl.cfg = s.cfg := rfl
@[simp] theorem State.ctrl_phase : s.ctrl.phase = s.phase := rfl
@[simp] theorem State.ctrl_syncCnt : s.ctrl.syncCnt = s.syncCnt := rfl
@[simp] theorem State.ctrl_cursor : s.ctrl.cursor = s.cursor := rfl

/-- The decoder's view of the state does not see the outputs, the buffer or the queue. -/
@[simp] theorem State.emit_ctrl (o : Out) : (s.emit o).ctrl = s.ctrl := rfl
@[simp] theorem State.answer_ctrl (r : Reply) : (s.answer r).ctrl = s.ctrl := rfl
@[simp] theorem State.setFbuf_ctrl (m : Memory) : (s.setFbuf m).ctrl = s.ctrl := rfl
@[simp] theorem State.setInputs_ctrl (rs : List Request) : (s.setInputs rs).ctrl = s.ctrl := rfl

@[simp] theorem Out.silent_frame : Out.silent.frame = none := rfl
@[simp] theorem Out.silent_result : Out.silent.result = none := rfl

end Sys2Proof.Machine
end

