-- ==== Sys2Proof/Laws/Memory.lean ====
section
/-!
SUPPORT. The laws of the frame buffer: read after write, and that a write keeps the canonical form and the address space.
-/

namespace Sys2Proof.Machine

theorem Memory.read_write_same (m : Memory) (a : Nat) (v : Byte) : (m.write a v).read a = some v := by
  induction m with
  | nil => simp [Memory.write, Memory.read]
  | cons c rest ih =>
    obtain ⟨k, u⟩ := c
    simp only [Memory.write]
    split
    · simp [Memory.read]
    · split
      · simp [Memory.read]
      · simp only [Memory.read, ih, ite_eq_right_iff, Option.some.injEq]
        omega

theorem Memory.read_write_other (m : Memory) {a x : Nat} (v : Byte) (h : x ≠ a) :
    (m.write a v).read x = m.read x := by
  induction m with
  | nil => simp [Memory.write, Memory.read, h.symm]
  | cons c rest ih =>
    obtain ⟨k, u⟩ := c
    simp only [Memory.write]
    split
    · simp [Memory.read, h.symm]
    · split
      · rename_i hk
        subst hk
        simp [Memory.read, h.symm]
      · simp only [Memory.read, ih]

/-- Read after write in one equation. -/
theorem Memory.read_write (m : Memory) (a x : Nat) (v : Byte) :
    (m.write a v).read x = if x = a then some v else m.read x := by
  split
  · rename_i h
    rw [h, m.read_write_same]
  · rename_i h
    exact m.read_write_other v h

theorem Memory.mem_write {m : Memory} {a : Nat} {v : Byte} {c : Host.Cell} (h : c ∈ m.write a v) :
    c = (a, v) ∨ c ∈ m := by
  induction m with
  | nil => simpa [Memory.write] using h
  | cons d rest ih =>
    obtain ⟨k, u⟩ := d
    simp only [Memory.write] at h
    split at h
    · simpa using h
    · split at h
      · rcases List.mem_cons.1 h with h | h
        · exact .inl h
        · exact .inr (List.mem_cons_of_mem _ h)
      · rcases List.mem_cons.1 h with h | h
        · exact .inr (h ▸ List.mem_cons_self ..)
        · exact (ih h).imp_right (List.mem_cons_of_mem _)

/-- A write keeps the canonical form. -/
theorem Memory.write_wf {m : Memory} (a : Nat) (v : Byte) (h : m.wf) : (m.write a v).wf := by
  induction m with
  | nil => simp [Memory.write, Memory.wf]
  | cons c rest ih =>
    obtain ⟨k, u⟩ := c
    obtain ⟨hk, hrest⟩ := List.pairwise_cons.1 h
    simp only [Memory.write]
    split
    · rename_i hlt
      refine List.pairwise_cons.2 ⟨fun d hd => ?_, h⟩
      rcases List.mem_cons.1 hd with rfl | hd
      · exact hlt
      · exact Nat.lt_trans hlt (hk d hd)
    · split
      · rename_i heq
        subst heq
        exact List.pairwise_cons.2 ⟨hk, hrest⟩
      · refine List.pairwise_cons.2 ⟨fun d hd => ?_, ih hrest⟩
        rcases Memory.mem_write hd with rfl | hd
        · show k < a
          omega
        · exact hk d hd

/-- A write within the address space stays within it. -/
theorem Memory.write_inRange {m : Memory} {n a : Nat} (v : Byte) (ha : a < n) (h : m.inRange n) :
    (m.write a v).inRange n := by
  intro c hc
  rcases Memory.mem_write hc with rfl | hc
  · exact ha
  · exact h c hc

theorem State.reset_fbuf_wf : State.reset.fbuf.wf := List.Pairwise.nil

/-- What a cell holds after a write. -/
theorem readCell_setFbuf_write (s : State) (a x : Nat) (v : Byte) :
    readCell (s.setFbuf (s.fbuf.write a v)) x = if x = a then v else readCell s x := by
  simp only [readCell, State.setFbuf_fbuf, Memory.read_write]
  split <;> rfl

@[simp] theorem length_memRead (s : State) (n : Nat) : (memRead s n).length = n := by simp [memRead]

theorem getElem_memRead (s : State) (n : Nat) (i : Nat) (h : i < (memRead s n).length) :
    (memRead s n)[i] = readCell s i := by simp [memRead]

end Sys2Proof.Machine
end

