-- ==== Sys2Proof/Laws/Ops.lean ====
section
/-!
SUPPORT. What each shared operation can do: one lemma each, which proofs cite instead of unfolding the operation.
-/

namespace Sys2Proof.Machine

theorem whenDefined_next {s t : State} {k : StepOutcome} :
    whenDefined s k = .next t ↔ s.cfg.legal = true ∧ s.phase ≠ .reserved ∧ k = .next t := by
  unfold whenDefined
  split
  · split <;> simp_all
  · simp_all

theorem whenDefined_of_legal {s : State} (k : StepOutcome) (h : s.cfg.legal = true) (hp : s.phase ≠ .reserved) :
    whenDefined s k = k := by
  simp [whenDefined, h, hp]

theorem whenDefined_of_reserved {s : State} (k : StepOutcome) (h : s.cfg.legal = true) (hp : s.phase = .reserved) :
    whenDefined s k = .refused .reservedPhase := by
  simp [whenDefined, h, hp]

theorem whenDefined_of_illegal {s : State} (k : StepOutcome) (h : s.cfg.legal = false) :
    whenDefined s k = .refused .illegalConfig := by
  simp [whenDefined, h]

theorem onRow_next {s t : State} {cond : Bool} {k : StepOutcome} :
    onRow s cond k = .next t ↔ s.cfg.legal = true ∧ s.phase ≠ .reserved ∧ cond = true ∧ k = .next t := by
  unfold onRow
  rw [whenDefined_next]
  split <;> simp_all

theorem onRow_of_holds {s : State} {cond : Bool} (k : StepOutcome) (h : s.cfg.legal = true) (hp : s.phase ≠ .reserved)
    (hc : cond = true) : onRow s cond k = k := by
  rw [onRow, whenDefined_of_legal _ h hp, if_pos hc]

theorem onRow_of_not_holds {s : State} {cond : Bool} (k : StepOutcome) (h : s.cfg.legal = true)
    (hp : s.phase ≠ .reserved) (hc : cond = false) : onRow s cond k = .refused .rowNotSelected := by
  rw [onRow, whenDefined_of_legal _ h hp, hc]
  rfl

theorem onFrame_next {s t : State} {f : Frame} {k : StepOutcome} :
    onFrame s f k = .next t ↔
      s.cfg.legal = true ∧ s.phase ≠ .reserved ∧ f.length = s.cfg.frameLen ∧ k = .next t := by
  unfold onFrame isFrame
  rw [whenDefined_next]
  split <;> simp_all

theorem onFrame_of_frame {s : State} {f : Frame} (k : StepOutcome) (h : s.cfg.legal = true)
    (hp : s.phase ≠ .reserved) (hf : f.length = s.cfg.frameLen) : onFrame s f k = k := by
  rw [onFrame, whenDefined_of_legal _ h hp, if_pos (by simpa [isFrame] using hf)]

theorem memWrite_next {s t : State} {a : Nat} {v : Byte} :
    memWrite a v s = .next t ↔ a < s.cfg.frameLen ∧ t = s.setFbuf (s.fbuf.write a v) := by
  unfold memWrite
  split <;> simp_all [eq_comm]

theorem memWrite_of_lt {s : State} {a : Nat} (v : Byte) (h : a < s.cfg.frameLen) :
    memWrite a v s = .next (s.setFbuf (s.fbuf.write a v)) := by
  simp [memWrite, h]

theorem fetch_nil {s : State} (h : s.inputs = []) : fetch s = (encode .idle, s) := by
  simp [fetch, h]

theorem fetch_cons {s : State} {r : Request} {rest : List Request} (h : s.inputs = r :: rest) :
    fetch s = (r, s.setInputs rest) := by
  simp [fetch, h]

/-- The dispatch in terms of the state's own fields. -/
theorem selectRow_ctrl (s : State) (b : Byte) :
    selectRow s.ctrl b =
      match s.phase with
      | .syncing =>
        if isMarker s.cfg b then
          if s.syncCnt + 1 < s.cfg.syncThreshold then .ok .markCount else .ok .markLock
        else .ok .other
      | .synced => if isMarker s.cfg b then .ok .markSkip else .ok .start
      | .parsingPayload => if s.cursor + 1 < s.cfg.frameLen then .ok .append else .ok .complete
      | .reserved => .error .reservedPhase := rfl

theorem isMarker_iff {c : Config} {b : Byte} : isMarker c b = true ↔ b = c.syncMarker := by
  simp [isMarker]

theorem isMarker_eq_false_iff {c : Config} {b : Byte} : isMarker c b = false ↔ b ≠ c.syncMarker := by
  simp [isMarker]

/-- The condition of each byte row as a proposition. -/
theorem rowHolds_markCount_iff {c : Ctrl} {b : Byte} : rowHolds c b .markCount = true ↔
    c.phase = .syncing ∧ b = c.cfg.syncMarker ∧ c.syncCnt + 1 < c.cfg.syncThreshold := by
  simp [rowHolds, isMarker]

theorem rowHolds_markLock_iff {c : Ctrl} {b : Byte} : rowHolds c b .markLock = true ↔
    c.phase = .syncing ∧ b = c.cfg.syncMarker ∧ c.cfg.syncThreshold ≤ c.syncCnt + 1 := by
  simp [rowHolds, isMarker]

theorem rowHolds_other_iff {c : Ctrl} {b : Byte} : rowHolds c b .other = true ↔
    c.phase = .syncing ∧ b ≠ c.cfg.syncMarker := by
  simp [rowHolds, isMarker]

theorem rowHolds_markSkip_iff {c : Ctrl} {b : Byte} : rowHolds c b .markSkip = true ↔
    c.phase = .synced ∧ b = c.cfg.syncMarker := by
  simp [rowHolds, isMarker]

theorem rowHolds_start_iff {c : Ctrl} {b : Byte} : rowHolds c b .start = true ↔
    c.phase = .synced ∧ b ≠ c.cfg.syncMarker := by
  simp [rowHolds, isMarker]

theorem rowHolds_append_iff {c : Ctrl} {b : Byte} : rowHolds c b .append = true ↔
    c.phase = .parsingPayload ∧ c.cursor + 1 < c.cfg.frameLen := by
  simp [rowHolds]

theorem rowHolds_complete_iff {c : Ctrl} {b : Byte} : rowHolds c b .complete = true ↔
    c.phase = .parsingPayload ∧ c.cfg.frameLen ≤ c.cursor + 1 := by
  simp [rowHolds]

/-- Each clause of legality by itself. -/
theorem legal_iff {c : Config} : c.legal = true ↔
    1 ≤ c.syncThreshold ∧ c.syncThreshold ≤ 255 ∧ 6 ≤ c.frameLen ∧ c.frameLen ≤ 65536
      ∧ c.tempLsb.1 * 16 = c.tempLsb.2 ∧ 0 < c.tempLsb.2 ∧ c.msgSingle ≠ c.msgBulk := by
  simp [Config.legal]

theorem runBytes_nil (s : State) : runBytes [] s = .next (s, []) := rfl

/-- One byte of a run, when its step goes on. -/
theorem runBytes_cons_of_next {b : InByte} {bs : List InByte} {s s₁ : State} (h : byteStep b s = .next s₁) :
    runBytes (b :: bs) s =
      match runBytes bs s₁ with
      | .fault r => .fault r
      | .refused r => .refused r
      | .next (s₂, outs) => .next (s₂, s₁.out :: outs) := by
  cases hr : runBytes bs s₁ <;> simp only [runBytes, h, hr]

theorem runBytes_cons_of_refused {b : InByte} {bs : List InByte} {s : State} {r : Refusal}
    (h : byteStep b s = .refused r) : runBytes (b :: bs) s = .refused r := by
  simp only [runBytes, h]

/-- If a run goes on, its first byte's step did and so did the rest of the run. -/
theorem runBytes_cons_next {b : InByte} {bs : List InByte} {s t : State} {outs : List Out}
    (h : runBytes (b :: bs) s = .next (t, outs)) :
    ∃ s₁ rest, byteStep b s = .next s₁ ∧ runBytes bs s₁ = .next (t, rest) ∧ outs = s₁.out :: rest := by
  simp only [runBytes] at h
  split at h
  · cases h
  · cases h
  · rename_i s₁ hs
    split at h
    · cases h
    · cases h
    · rename_i s₂ rest hr
      cases h
      exact ⟨s₁, rest, hs, hr, rfl⟩

end Sys2Proof.Machine
end

