-- ==== Sys2Proof/Laws/Decoder.lean ====
section
/-!
SUPPORT. What `decodeFrame` answers, case by case (41_frame_decoder.md R100), and the BYTE step as the instruction the
dispatch selects (40_synchronizer.md R88).
-/

namespace Sys2Proof.Machine

theorem typeOf_eq_byteAt (f : Frame) : typeOf f = byteAt f 0 := by
  cases f <;> rfl

theorem isSingle_iff {c : Config} {t : Byte} : isSingle c t = true ↔ t = c.msgSingle ∧ t ≠ c.syncMarker := by
  simp [isSingle]

theorem isBulk_iff {c : Config} {t : Byte} : isBulk c t = true ↔ t = c.msgBulk ∧ t ≠ c.syncMarker := by
  simp [isBulk]

/-- Under legal parameters a bulk type is no single type. -/
theorem isSingle_of_isBulk {c : Config} {t : Byte} (hl : c.legal = true) (h : isBulk c t = true) :
    isSingle c t = false := by
  obtain ⟨ht, -⟩ := isBulk_iff.1 h
  obtain ⟨-, -, -, -, -, -, hne⟩ := legal_iff.1 hl
  simp [isSingle, ht, hne.symm]

theorem not_isSingle_not_isBulk_iff {c : Config} {t : Byte} :
    isSingle c t = false ∧ isBulk c t = false ↔ (t ≠ c.msgSingle ∧ t ≠ c.msgBulk) ∨ t = c.syncMarker := by
  simp only [isSingle, isBulk, Bool.and_eq_false_iff, beq_eq_false_iff_ne, bne_eq_false_iff_eq]
  tauto

theorem decodeFrame_of_bad {c : Config} {f : Frame} (n : Millis) (h : checksumOk c f = false) :
    decodeFrame c f n = crcFailResult f := by
  unfold decodeFrame; rw [h]; rfl

theorem decodeFrame_of_single {c : Config} {f : Frame} (n : Millis) (h : checksumOk c f = true)
    (ht : isSingle c (typeOf f) = true) : decodeFrame c f n = singleResult c f n := by
  unfold decodeFrame; rw [h, if_neg (by decide), if_pos ht]

theorem decodeFrame_of_bulk {c : Config} {f : Frame} (n : Millis) (h : checksumOk c f = true)
    (hs : isSingle c (typeOf f) = false) (ht : isBulk c (typeOf f) = true) : decodeFrame c f n = bulkResult f := by
  unfold decodeFrame; rw [h, if_neg (by decide), hs, if_neg (by decide), if_pos ht]

theorem decodeFrame_of_unknown {c : Config} {f : Frame} (n : Millis) (h : checksumOk c f = true)
    (hs : isSingle c (typeOf f) = false) (ht : isBulk c (typeOf f) = false) : decodeFrame c f n = unknownResult f := by
  unfold decodeFrame; rw [h, if_neg (by decide), hs, ht]
  rfl

/-- The BYTE step is `exec` of the row the dispatch selects. -/
theorem byteStep_of_row {s : State} {b : InByte} {row : ByteRow} (h : selectRow s.ctrl b.data = .ok row) :
    byteStep b s = exec (rowInstr b.data b.nowMs row) s := by
  unfold byteStep
  rw [h]
  cases row <;> rfl

theorem byteStep_of_error {s : State} {b : InByte} {e : DecodeError} (h : selectRow s.ctrl b.data = .error e) :
    byteStep b s = .refused (refusalOf e) := by
  unfold byteStep
  rw [h]

end Sys2Proof.Machine
end

