-- ==== Sys2Proof/Laws/PerInstr.lean ====
section
/-!
SUPPORT. Statements about every instruction as syntax, one lemma per constructor. WordBits: the encoded words of a
well-formed instruction have the length of its row's format (30_encoding.md R60, R69).
-/

namespace Sys2Proof.Laws

/-- The length in bytes of each row's format: an input byte, a candidate frame, the temperature register, or none. -/
def WordBits.formatBytes (c : Config) : Instr → Option Nat
  | .byteSyncingMarkCount _ => some 1
  | .byteSyncingMarkLock _ => some 1
  | .byteSyncingOther _ => some 1
  | .byteSyncedMarkSkip _ => some 1
  | .byteSyncedStart _ => some 1
  | .byteParsingAppend _ => some 1
  | .byteParsingComplete _ _ => some 1
  | .idle => none
  | .reset => none
  | .decode _ _ => some c.frameLen
  | .checksum _ => some c.frameLen
  | .msgSingle _ _ => some c.frameLen
  | .msgBulk _ => some c.frameLen
  | .msgUnknown _ => some c.frameLen
  | .tempDecode _ _ => some 2
  | .tempRender _ _ => none
  | .feed _ => none
  | .poll _ _ => none
  | .tsEncode _ => none
  | .tsDecode _ => none

/-- A well-formed instruction's words fill its row's format exactly. -/
def WordBits.Statement (i : Instr) : Prop :=
  ∀ c : Config, wellFormed c i = true → (encodeWords i).map List.length = WordBits.formatBytes c i

theorem WordBits.byteSyncingMarkCount (b : Byte) : WordBits.Statement (.byteSyncingMarkCount b) := fun _ _ => rfl
theorem WordBits.byteSyncingMarkLock (b : Byte) : WordBits.Statement (.byteSyncingMarkLock b) := fun _ _ => rfl
theorem WordBits.byteSyncingOther (b : Byte) : WordBits.Statement (.byteSyncingOther b) := fun _ _ => rfl
theorem WordBits.byteSyncedMarkSkip (b : Byte) : WordBits.Statement (.byteSyncedMarkSkip b) := fun _ _ => rfl
theorem WordBits.byteSyncedStart (b : Byte) : WordBits.Statement (.byteSyncedStart b) := fun _ _ => rfl
theorem WordBits.byteParsingAppend (b : Byte) : WordBits.Statement (.byteParsingAppend b) := fun _ _ => rfl
theorem WordBits.byteParsingComplete (b : Byte) (nowMs : Millis) :
    WordBits.Statement (.byteParsingComplete b nowMs) := fun _ _ => rfl
theorem WordBits.idle : WordBits.Statement .idle := fun _ _ => rfl
theorem WordBits.reset : WordBits.Statement .reset := fun _ _ => rfl
theorem WordBits.decode (f : Frame) (nowMs : Millis) : WordBits.Statement (.decode f nowMs) := by
  intro c h
  simpa [encodeWords, encode, requestBytes, formatBytes, wellFormed, isFrame] using h
theorem WordBits.checksum (f : Frame) : WordBits.Statement (.checksum f) := by
  intro c h
  simpa [encodeWords, encode, requestBytes, formatBytes, wellFormed, isFrame] using h
theorem WordBits.msgSingle (f : Frame) (nowMs : Millis) : WordBits.Statement (.msgSingle f nowMs) := by
  intro c h
  have hf := (Bool.and_eq_true_iff.1 h).1
  simpa [encodeWords, encode, requestBytes, formatBytes, isFrame] using hf
theorem WordBits.msgBulk (f : Frame) : WordBits.Statement (.msgBulk f) := by
  intro c h
  have hf := (Bool.and_eq_true_iff.1 h).1
  simpa [encodeWords, encode, requestBytes, formatBytes, isFrame] using hf
theorem WordBits.msgUnknown (f : Frame) : WordBits.Statement (.msgUnknown f) := by
  intro c h
  have hf := (Bool.and_eq_true_iff.1 (Bool.and_eq_true_iff.1 h).1).1
  simpa [encodeWords, encode, requestBytes, formatBytes, isFrame] using hf
theorem WordBits.tempDecode (high low : Byte) : WordBits.Statement (.tempDecode high low) := fun _ _ => rfl
theorem WordBits.tempRender (sign : BitVec 1) (mag : BitVec 11) : WordBits.Statement (.tempRender sign mag) :=
  fun _ _ => rfl
theorem WordBits.feed (chunk : List InByte) : WordBits.Statement (.feed chunk) := fun _ _ => rfl
theorem WordBits.poll (leftover : List InByte) (chunks : List (List InByte)) :
    WordBits.Statement (.poll leftover chunks) := fun _ _ => rfl
theorem WordBits.tsEncode (t : Int) : WordBits.Statement (.tsEncode t) := fun _ _ => rfl
theorem WordBits.tsDecode (s : Text) : WordBits.Statement (.tsDecode s) := fun _ _ => rfl

end Sys2Proof.Laws
end

