-- ==== Sys2Proof/Laws/Timestamp.lean ====
section
/-!
SUPPORT. What TS_ENCODE and TS_DECODE answer for each outcome of `encodeTimestamp` and `decodeTimestamp`.
-/

namespace Sys2Proof.Machine

theorem tsEncode_next {s : State} {t : Int} {x : Text} (hl : s.cfg.legal = true) (hp : s.phase ≠ .reserved)
    (h : encodeTimestamp s.cfg t = some x) : exec (.tsEncode t) s = .next (s.answer (.text x)) := by
  show execTsEncode t s = _
  unfold execTsEncode
  rw [whenDefined_of_legal _ hl hp, h]

theorem tsEncode_refused {s : State} {t : Int} (hl : s.cfg.legal = true) (hp : s.phase ≠ .reserved)
    (h : encodeTimestamp s.cfg t = none) : exec (.tsEncode t) s = .refused .tsOutOfDomain := by
  show execTsEncode t s = _
  unfold execTsEncode
  rw [whenDefined_of_legal _ hl hp, h]

theorem tsDecodeOutcome_of_ascii (c : Config) {x : Text} (h : isAscii x = true) :
    tsDecodeOutcome c x = decodeTimestamp c x := by
  rw [tsDecodeOutcome, if_pos h]

/-- The free value is a time or a format error, never a refusal. -/
theorem tsDecodeOutcome_of_not_ascii (c : Config) {x : Text} (h : isAscii x = false) :
    (∃ t, Config.nonAsciiDecode x = .ok t ∧ tsDecodeOutcome c x = .millis t)
    ∨ ∃ e, Config.nonAsciiDecode x = .error e ∧ tsDecodeOutcome c x = .formatError e := by
  rw [tsDecodeOutcome, h]
  cases Config.nonAsciiDecode x with
  | ok t => exact .inl ⟨t, rfl, rfl⟩
  | error e => exact .inr ⟨e, rfl, rfl⟩

theorem tsDecode_millis {s : State} {x : Text} {t : Nat} (hl : s.cfg.legal = true) (hp : s.phase ≠ .reserved)
    (h : tsDecodeOutcome s.cfg x = .millis t) : exec (.tsDecode x) s = .next (s.answer (.millis t)) := by
  show execTsDecode x s = _
  unfold execTsDecode
  rw [whenDefined_of_legal _ hl hp, h]

theorem tsDecode_formatError {s : State} {x : Text} {e : FormatError} (hl : s.cfg.legal = true)
    (hp : s.phase ≠ .reserved) (h : tsDecodeOutcome s.cfg x = .formatError e) :
    exec (.tsDecode x) s = .next (s.answer (.formatError e)) := by
  show execTsDecode x s = _
  unfold execTsDecode
  rw [whenDefined_of_legal _ hl hp, h]
  rfl

theorem tsDecode_outOfDomain {s : State} {x : Text} (hl : s.cfg.legal = true) (hp : s.phase ≠ .reserved)
    (h : tsDecodeOutcome s.cfg x = .outOfDomain) : exec (.tsDecode x) s = .refused .tsOutOfDomain := by
  show execTsDecode x s = _
  unfold execTsDecode
  rw [whenDefined_of_legal _ hl hp, h]

end Sys2Proof.Machine
end

