-- ==== Sys2Proof/Tests/Slice0.lean ====
section
/-!
SUPPORT. The model's own tests. Words are written out bit by bit from 30_encoding.md; expected results are the vectors of
95_test_vectors.md or worked out by hand from the rule named. Each `test_witness_…` shows states and operands that meet the
hypotheses of one statement, clause by clause. The small configuration has frames of 6 bytes, so that runs stay short.
-/

namespace Sys2Proof.Tests

open Sys2Proof Sys2Proof.Machine Sys2Proof.Safety

/-- The default parameters with the shortest legal frame (R7). -/
def small : Config := { frameLen := 6 }

/-- A state of the small configuration. -/
def st (p : Phase) (cnt cursor : Nat) (m : Memory := []) : State :=
  { State.reset with cfg := small, phase := p, syncCnt := cnt, cursor := cursor, fbuf := m }

/-- The next state of an outcome, if it is one. -/
def nextOf : StepOutcome → Option State
  | .next s => some s
  | .fault _ => none
  | .refused _ => none

/-- The reason of a refusal, if the outcome is one. -/
def reasonOf : StepOutcome → Option Refusal
  | .next _ => none
  | .fault _ => none
  | .refused r => some r

/-- The registers after a step. -/
def regsOf (o : StepOutcome) : Option (Phase × Nat × Nat) := (nextOf o).map fun s => (s.phase, s.syncCnt, s.cursor)

/-- The value a call returned. -/
def replyOf (o : StepOutcome) : Option Reply := (nextOf o).bind (·.reply)

/-- The instruction a decoder outcome holds, and the error it holds. -/
def instrOf (e : Except DecodeError Instr) : Option Instr := e.toOption

def errorOf : Except DecodeError Instr → Option DecodeError
  | .ok _ => none
  | .error e => some e

/-- Bytes with draws of 7. -/
def stream (bs : List Byte) : List InByte := bs.map fun b => ⟨b, 7⟩

/-- F1 of 95_test_vectors.md at length 6: type 1, seq 5, register 0x0010, checksum 0x14. -/
def frameSingle : Frame := [0x01, 0x05, 0x00, 0x10, 0x00, 0x14]

/-- FBULK at length 6. -/
def frameBulk : Frame := [0x02, 0x10, 0x00, 0x00, 0x00, 0x12]

/-- Type 3 at length 6. -/
def frameUnknown : Frame := [0x03, 0x00, 0x00, 0x00, 0x00, 0x03]

/-- A passing frame of type 0xAA at length 6. -/
def frameMarker : Frame := [0xAA, 0x00, 0x00, 0x00, 0x00, 0xAA]

/-- A legal configuration whose MSG_SINGLE equals SYNC_MARKER. -/
def markerSingle : Config := { small with msgSingle := 0xAA }

/-- F1 with a wrong checksum byte (V-D2). -/
def frameBad : Frame := [0x01, 0x05, 0x00, 0x10, 0x00, 0x15]

/-- F1's first five bytes in the buffer. -/
def memSingle : Memory := [(0, 0x01), (1, 0x05), (2, 0x00), (3, 0x10), (4, 0x00)]

/-- The sample of F1 with draw 7. -/
def sampleSingle : Sample := ⟨0, 16, 0x00, 0x10, 7, .temperature, .celsius⟩

def text1970 : Text := "1970-01-01T00:00:00.001000000".toList

def text1969 : Text := "1969-12-31T23:59:59.999000000".toList

/-! ## Decoding: the words of the spec -/

theorem test_decode_mark_count :
    instrOf (decode ⟨Config.default, .syncing, 2, 0⟩ (.port ⟨0b0, 0b1, 0b10101010, 0⟩))
      = some (.byteSyncingMarkCount 0b10101010) := by decide

theorem test_decode_mark_lock :
    instrOf (decode ⟨Config.default, .syncing, 3, 0⟩ (.port ⟨0b0, 0b1, 0b10101010, 0⟩))
      = some (.byteSyncingMarkLock 0b10101010) := by decide

theorem test_decode_other :
    instrOf (decode ⟨Config.default, .syncing, 3, 0⟩ (.port ⟨0b0, 0b1, 0b01000010, 0⟩))
      = some (.byteSyncingOther 0b01000010) := by decide

theorem test_decode_mark_skip :
    instrOf (decode ⟨Config.default, .synced, 0, 0⟩ (.port ⟨0b0, 0b1, 0b10101010, 0⟩))
      = some (.byteSyncedMarkSkip 0b10101010) := by decide

theorem test_decode_start :
    instrOf (decode ⟨Config.default, .synced, 0, 0⟩ (.port ⟨0b0, 0b1, 0b00000001, 0⟩))
      = some (.byteSyncedStart 0b00000001) := by decide

theorem test_decode_append :
    instrOf (decode ⟨Config.default, .parsingPayload, 0, 254⟩ (.port ⟨0b0, 0b1, 0b10101010, 0⟩))
      = some (.byteParsingAppend 0b10101010) := by decide

theorem test_decode_complete :
    instrOf (decode ⟨Config.default, .parsingPayload, 0, 255⟩ (.port ⟨0b0, 0b1, 0b00010100, 9⟩))
      = some (.byteParsingComplete 0b00010100 9) := by decide

theorem test_decode_idle :
    instrOf (decode ⟨Config.default, .syncing, 0, 0⟩ (.port ⟨0b0, 0b0, 0b10101010, 9⟩)) = some .idle := by decide

/-- R196: reset wins over a valid byte. -/
theorem test_decode_reset :
    instrOf (decode ⟨Config.default, .syncing, 3, 0⟩ (.port ⟨0b1, 0b1, 0b10101010, 9⟩)) = some .reset := by decide

theorem test_decode_frame_rows :
    instrOf (decode ⟨small, .syncing, 0, 0⟩ (.frame .decode frameSingle 9)) = some (.decode frameSingle 9)
    ∧ instrOf (decode ⟨small, .syncing, 0, 0⟩ (.frame .checksum frameBad 9)) = some (.checksum frameBad) := by decide

theorem test_decode_message_types :
    instrOf (decode ⟨small, .syncing, 0, 0⟩
        (.frame .message [0b00000001, 0b00000101, 0b00000000, 0b00010000, 0b00000000, 0b00010100] 9))
      = some (.msgSingle frameSingle 9)
    ∧ instrOf (decode ⟨small, .syncing, 0, 0⟩
        (.frame .message [0b00000010, 0b00010000, 0b00000000, 0b00000000, 0b00000000, 0b00010010] 9))
      = some (.msgBulk frameBulk)
    ∧ instrOf (decode ⟨small, .syncing, 0, 0⟩
        (.frame .message [0b00000011, 0b00000000, 0b00000000, 0b00000000, 0b00000000, 0b00000011] 9))
      = some (.msgUnknown frameUnknown) := by decide

/-- R43: the low byte (offset 3) comes first. The register is 0x0810. -/
theorem test_decode_temperature :
    instrOf (decode ⟨Config.default, .syncing, 0, 0⟩ (.temperature [0b00010000, 0b00001000]))
      = some (.tempDecode 0b00001000 0b00010000) := by decide

theorem test_decode_calls :
    instrOf (decode ctrlAtReset (.tempRender 1 16)) = some (.tempRender 1 16)
    ∧ instrOf (decode ctrlAtReset (.feed (stream [0xAA]))) = some (.feed (stream [0xAA]))
    ∧ instrOf (decode ctrlAtReset (.poll [] [stream [0xAA]])) = some (.poll [] [stream [0xAA]])
    ∧ instrOf (decode ctrlAtReset (.tsEncode (-1))) = some (.tsEncode (-1))
    ∧ instrOf (decode ctrlAtReset (.tsDecode text1970)) = some (.tsDecode text1970)
    ∧ instrOf (decode ctrlAtReset (.tsDecode [Char.ofNat 233])) = some (.tsDecode [Char.ofNat 233]) := by decide

theorem test_decode_rejects_by_name :
    errorOf (decode ⟨Config.default, .reserved, 0, 0⟩ (bytePort 0xAA 0)) = some .reservedPhase
    ∧ errorOf (decode ⟨small, .syncing, 0, 0⟩ (.frame .decode [0x01] 0)) = some .notAFrame
    ∧ errorOf (decode ctrlAtReset (.temperature [0x10])) = some .notARegister
    ∧ errorOf (decode ctrlAtReset (.temperature [0x10, 0x08, 0x00])) = some .notARegister
    ∧ errorOf (decode ⟨{ frameLen := 5 }, .syncing, 0, 0⟩ (bytePort 0xAA 0)) = some .illegalConfig := by decide

/-- R21, R170: the numeric encodings. -/
theorem test_phase_codes :
    (phaseCode .syncing, phaseCode .synced, phaseCode .parsingPayload, phaseCode .reserved) = (0b00, 0b01, 0b10, 0b11)
    ∧ ∀ v : BitVec 2, phaseCode (phaseOfCode v) = v := by decide

theorem test_event_codes :
    (eventCode .evNone, eventCode .evSample, eventCode .evBulk, eventCode .evUnknown, eventCode .evCrcFail)
      = (0, 1, 2, 3, 4)
    ∧ (eventOfCode 4 = some .evCrcFail ∧ eventOfCode 5 = none ∧ eventOfCode 6 = none ∧ eventOfCode 7 = none) := by
  decide

/-- The words of spec/opcode_table.json with fixed bits, the empty word and a temperature register. -/
theorem test_table_words :
    decodeTableWord 8 0b10101010 = some (.byteSyncingMarkCount 0xAA)
    ∧ decodeTableWord 8 0b01000010 = some (.byteSyncingOther 0x42)
    ∧ decodeTableWord 0 0 = some .idle
    ∧ decodeTableWord 16 0b0000100000010000 = some (.tempDecode 0x08 0x10)
    ∧ decodeTableWord 8 256 = none ∧ decodeTableWord 12 0 = none := by decide

/-- 1 for MSG_SINGLE, 2 for MSG_BULK, 3 for DECODE. -/
def wordKind (i : Instr) : Nat :=
  match i with
  | .msgSingle _ _ => 1
  | .msgBulk _ => 2
  | .decode _ _ => 3
  | _ => 0

theorem test_table_message_words :
    (decodeTableWord 8 0b00000001).map wordKind = some 1 ∧ (decodeTableWord 8 0b00000010).map wordKind = some 2
    ∧ (decodeTableWord 48 0).map wordKind = some 3 := by decide +kernel

/-- V-S1, the table's word 0xAA as the first step after reset; and 0x01 as a message type. -/
theorem test_table_word_runs :
    regsOf (step (State.reset.withFetchWord 8 0xAA)) = some (.syncing, 1, 0)
    ∧ replyOf (step (State.reset.withFetchWord 8 0x01))
      = some (.result ⟨.evSample, 0, some ⟨0, 0, 0x00, 0x00, 0, .temperature, .celsius⟩⟩) := by decide +kernel

/-! ## Well-formedness: one ill-formed term for each check -/

theorem test_illformed_byte_rows :
    wellFormed Config.default (.byteSyncingMarkCount 0x42) = false
    ∧ wellFormed Config.default (.byteSyncingMarkLock 0x42) = false
    ∧ wellFormed Config.default (.byteSyncingOther 0xAA) = false
    ∧ wellFormed Config.default (.byteSyncedMarkSkip 0x42) = false
    ∧ wellFormed Config.default (.byteSyncedStart 0xAA) = false := by decide

theorem test_illformed_frame_rows :
    wellFormed small (.decode [0x01] 0) = false
    ∧ wellFormed small (.checksum (frameSingle ++ [0x00])) = false
    ∧ wellFormed small (.msgSingle [0x01] 0) = false
    ∧ wellFormed small (.msgSingle frameBulk 0) = false
    ∧ wellFormed small (.msgBulk [0x02]) = false
    ∧ wellFormed small (.msgBulk frameSingle) = false
    ∧ wellFormed small (.msgUnknown [0x03]) = false
    ∧ wellFormed small (.msgUnknown frameSingle) = false
    ∧ wellFormed small (.msgUnknown frameBulk) = false := by decide

/-- R7: one illegal configuration for each condition. -/
theorem test_illegal_configurations :
    Config.legal { syncThreshold := 0 } = false ∧ Config.legal { syncThreshold := 256 } = false
    ∧ Config.legal { frameLen := 5 } = false ∧ Config.legal { frameLen := 65537 } = false
    ∧ Config.legal { tempLsb := (1, 8) } = false ∧ Config.legal { tempLsb := (0, 0) } = false
    ∧ Config.legal { msgBulk := 0x01 } = false ∧ Config.default.legal = true := by decide

/-! ## The byte rows: V-S1 to V-S15 -/

theorem test_mark_count : regsOf (exec (.byteSyncingMarkCount 0xAA) (st .syncing 2 0)) = some (.syncing, 3, 0) := by
  decide

theorem test_mark_lock : regsOf (exec (.byteSyncingMarkLock 0xAA) (st .syncing 3 0)) = some (.synced, 0, 0) := by
  decide

/-- V-S13: with a threshold of 1 the first marker locks. -/
theorem test_mark_lock_threshold_one :
    regsOf (step { st .syncing 0 0 with cfg := { small with syncThreshold := 1 }, inputs := [bytePort 0xAA 0] })
      = some (.synced, 0, 0) := by decide

theorem test_other : regsOf (exec (.byteSyncingOther 0x42) (st .syncing 3 0)) = some (.syncing, 0, 0) := by decide

theorem test_mark_skip : regsOf (exec (.byteSyncedMarkSkip 0xAA) (st .synced 0 0)) = some (.synced, 0, 0) := by decide

theorem test_start :
    nextOf (exec (.byteSyncedStart 0x01) (st .synced 0 0 [(0, 0x99), (2, 0x55)]))
      = some (st .parsingPayload 0 1 [(0, 0x01), (2, 0x55)]) := by decide

theorem test_append_marker :
    nextOf (exec (.byteParsingAppend 0xAA) (st .parsingPayload 0 1 [(0, 0x01)]))
      = some (st .parsingPayload 0 2 [(0, 0x01), (1, 0xAA)]) := by decide

theorem test_append_to_last_but_one :
    regsOf (exec (.byteParsingAppend 0x00) (st .parsingPayload 0 4 memSingle)) = some (.parsingPayload, 0, 5) := by
  decide

/-- V-S10 at length 6. -/
theorem test_complete :
    (nextOf (exec (.byteParsingComplete 0x14 7) (st .parsingPayload 0 5 memSingle)))
      = some { st .syncing 0 0 (memSingle ++ [(5, 0x14)]) with
          out := ⟨some frameSingle, some ⟨.evSample, 5, some sampleSingle⟩⟩ } := by decide

/-- V-X7 at length 6: a frame that fails is still put out. -/
theorem test_complete_bad_checksum :
    ((nextOf (exec (.byteParsingComplete 0x15 7) (st .parsingPayload 0 5 memSingle))).map (·.out))
      = some ⟨some frameBad, some ⟨.evCrcFail, 5, none⟩⟩ := by decide

theorem test_idle : nextOf (exec .idle (st .parsingPayload 0 3 memSingle)) = some (st .parsingPayload 0 3 memSingle) := by
  decide

/-- V-X1: the partial frame is dropped, the buffer kept. -/
theorem test_reset : nextOf (exec .reset (st .parsingPayload 0 3 memSingle)) = some (st .syncing 0 0 memSingle) := by
  decide

/-- V-X3: reset wins, the byte is not consumed. -/
theorem test_reset_wins :
    regsOf (step { st .syncing 3 0 with inputs := [.port ⟨1, 1, 0xAA, 0⟩] }) = some (.syncing, 0, 0) := by decide

/-- R66, 93 U3: the reserved phase is refused whatever the instruction. -/
theorem test_reserved_phase :
    reasonOf (exec .idle (st .reserved 0 0)) = some .reservedPhase
    ∧ reasonOf (exec .reset (st .reserved 0 0)) = some .reservedPhase
    ∧ reasonOf (exec (.feed []) (st .reserved 0 0)) = some .reservedPhase
    ∧ reasonOf (exec (.tempDecode 0xFF 0xF0) (st .reserved 0 0)) = some .reservedPhase := by decide

/-! ## The decoder: V-D vectors at length 6 -/

theorem test_decode_single :
    replyOf (exec (.decode frameSingle 7) (st .syncing 0 0))
      = some (.result ⟨.evSample, 5, some sampleSingle⟩) := by decide

/-- V-D4: a failing frame of unknown type reports the checksum. -/
theorem test_decode_checksum_before_type :
    replyOf (exec (.decode [0x81, 0x05, 0x00, 0x10, 0x00, 0x14] 7) (st .syncing 0 0))
      = some (.result ⟨.evCrcFail, 5, none⟩) := by decide

/-- R66, 93 U16: a passing frame of type SYNC_MARKER is unknown, by default and where MSG_SINGLE has that value too. -/
theorem test_marker_type_unknown :
    (decodeFrame small frameMarker 7).event = .evUnknown ∧ (decodeFrame markerSingle frameMarker 7).event = .evUnknown
    ∧ instrOf (decode ⟨markerSingle, .syncing, 0, 0⟩ (.frame .message frameMarker 7))
      = some (.msgUnknown frameMarker) := by decide

theorem test_checksum :
    replyOf (exec (.checksum frameSingle) (st .syncing 0 0)) = some (.checksum true)
    ∧ replyOf (exec (.checksum frameBad) (st .syncing 0 0)) = some (.checksum false) := by decide

/-- V-Q1: the sequence number 0x1234, the register 0x0190. -/
theorem test_msg_single :
    replyOf (exec (.msgSingle [0x01, 0x34, 0x12, 0x90, 0x01, 0xB6] 7) (st .syncing 0 0))
      = some (.result ⟨.evSample, 0x1234, some ⟨0, 400, 0x01, 0x90, 7, .temperature, .celsius⟩⟩) := by decide

/-- V-D9. -/
theorem test_msg_bulk :
    replyOf (exec (.msgBulk frameBulk) (st .syncing 0 0)) = some (.result ⟨.evBulk, 0x0010, none⟩) := by decide

/-- V-D11. -/
theorem test_msg_unknown :
    replyOf (exec (.msgUnknown [0xFF, 0xEF, 0xBE, 0x00, 0x00, 0xAE]) (st .syncing 0 0))
      = some (.result ⟨.evUnknown, 0xBEEF, none⟩) := by decide

/-- V-D8 and R101 at the default length: the all-zero frame passes. -/
theorem test_zero_frame_passes : checksumOk Config.default (List.replicate 256 0) = true := by decide +kernel

/-! ## Temperatures: V-T vectors -/

/-- V-T14 and V-T21. -/
theorem test_temp_decode_complement :
    replyOf (exec (.tempDecode 0xFF 0xF0) (st .syncing 0 0)) = some (.temperature 1 16)
    ∧ replyOf (exec (.tempDecode 0xF8 0x00) (st .syncing 0 0)) = some (.temperature 1 0) := by decide

/-- V-T14 under SIGN_MAGNITUDE, and V-T19. -/
theorem test_temp_decode_sign_magnitude :
    tempDecode { small with tempNegMode := .signMagnitude } 0xFF 0xF0 = (1, 2032)
    ∧ tempDecode small 0x80 0x00 = (0, 0) := by decide

theorem test_temp_render :
    replyOf (exec (.tempRender 1 1999) (st .syncing 0 0)) = some (.text "-124.9375".toList)
    ∧ replyOf (exec (.tempRender 0 0) (st .syncing 0 0)) = some (.text "+0.0".toList) := by decide

theorem test_temp_render_fractions :
    (List.range 16).map (fun k => String.ofList (fracDigits k))
      = ["0", "0625", "125", "1875", "25", "3125", "375", "4375", "5", "5625", "625", "6875", "75", "8125", "875",
        "9375"] := by decide

/-! ## The host interface -/

/-- V-H2. -/
theorem test_feed :
    regsOf (exec (.feed (stream [0xAA, 0xAA])) (st .syncing 0 0)) = some (.syncing, 2, 0)
    ∧ replyOf (exec (.feed []) (st .syncing 0 0)) = some (.results []) := by decide

/-- V-H4 at length 6: the leftover is fed first. -/
theorem test_poll :
    replyOf (exec (.poll (stream [0xAA, 0xAA]) [stream [0xAA, 0xAA], stream frameSingle]) (st .syncing 0 0))
      = some (.polled [sampleSingle] []) := by decide

/-- V-X6 at length 6, whatever the ports not flagged valid hold. -/
theorem test_ports (any : PortOut) :
    portOut any (completionOut 0x14 7 (st .parsingPayload 0 5 memSingle))
      = ⟨1, 1, frameSingle, 1, 1, 0x0005, 1, 0, 16, 0x00, 0x10, 7⟩ := by rfl

/-! ## Timestamps: V-TS vectors -/

/-- V-TS4 and V-TS2. -/
theorem test_ts_encode :
    replyOf (exec (.tsEncode 253402300799999) State.reset) = some (.text "9999-12-31T23:59:59.999000000".toList)
    ∧ replyOf (exec (.tsEncode 951782400000) State.reset)
      = some (.text "2000-02-29T00:00:00.000000000".toList) := by decide

/-- V-TS5 and V-TS6. -/
theorem test_ts_encode_refused :
    reasonOf (exec (.tsEncode (-1)) State.reset) = some .tsOutOfDomain
    ∧ reasonOf (exec (.tsEncode 253402300800000) State.reset) = some .tsOutOfDomain := by decide

/-- V-TS7 and V-TS15. -/
theorem test_ts_decode :
    replyOf (exec (.tsDecode "2000-02-29T00:00:00.000000000".toList) State.reset) = some (.millis 951782400000)
    ∧ reasonOf (exec (.tsDecode text1969) State.reset) = some .tsOutOfDomain := by decide

/-- V-TS8 to V-TS14, but for the ones of the same cause. -/
theorem test_ts_decode_errors :
    replyOf (exec (.tsDecode "2023-11-14T22:13:20.000".toList) State.reset) = some (.formatError .badLength)
    ∧ replyOf (exec (.tsDecode "2023-11-14T22:13:20.000000001".toList) State.reset) = some (.formatError .badPadding)
    ∧ replyOf (exec (.tsDecode "2023-11-14 22:13:20.000000000".toList) State.reset) = some (.formatError .badPrefix)
    ∧ replyOf (exec (.tsDecode "2001-02-29T00:00:00.000000000".toList) State.reset) = some (.formatError .badField) := by
  decide

/-! ## Witnesses: hypotheses that are met together

Numbered as in OBLIGATIONS.json. -/

/-- R80 at the two ends of the range of `SYNC_CNT`, and a threshold of 1. -/
theorem test_witness_MarkCountAddsOne :
    ((st .syncing 0 0).cfg.legal = true ∧ (st .syncing 0 0).phase = .syncing ∧ (0xAA : Byte) = small.syncMarker
      ∧ (st .syncing 0 0).syncCnt + 1 < small.syncThreshold ∧ (st .syncing 2 0).syncCnt + 1 < small.syncThreshold)
    ∧ Config.legal { syncThreshold := 1 } = true := by decide

theorem test_witness_MarkLockEntersSynced :
    ((st .syncing 3 0).cfg.legal = true ∧ (st .syncing 3 0).phase = .syncing
      ∧ (st .syncing 3 0).syncCnt + 1 = small.syncThreshold)
    ∧ ((st .syncing 0 0).syncCnt = 0 ∧ (stream [0xAA, 0xAA, 0xAA, 0xAA]).length = small.syncThreshold
      ∧ ∀ x ∈ stream [0xAA, 0xAA, 0xAA, 0xAA], x.data = small.syncMarker) := by decide

theorem test_witness_OtherClearsCount :
    (st .syncing 3 0).cfg.legal = true ∧ (st .syncing 3 0).phase = .syncing ∧ 1 < small.syncThreshold
    ∧ (⟨0x42, 7⟩ : InByte).data ≠ small.syncMarker ∧ (⟨0xAA, 7⟩ : InByte).data = small.syncMarker := by decide

theorem test_witness_MarkSkipKeepsState :
    (st .synced 0 0).cfg.legal = true ∧ (st .synced 0 0).phase = .synced
    ∧ ∀ x ∈ stream [0xAA, 0xAA], x.data = (st .synced 0 0).cfg.syncMarker := by decide

theorem test_witness_StartStoresByteZero :
    (st .synced 0 0).cfg.legal = true ∧ (st .synced 0 0).phase = .synced ∧ (0x01 : Byte) ≠ small.syncMarker := by decide

/-- The first and the last cursor R85 takes. -/
theorem test_witness_AppendStoresAtCursor :
    (st .parsingPayload 0 1).cfg.legal = true ∧ (st .parsingPayload 0 1).phase = .parsingPayload
    ∧ 1 ≤ (st .parsingPayload 0 1).cursor ∧ (st .parsingPayload 0 1).cursor + 1 < small.frameLen
    ∧ (st .parsingPayload 0 4).cursor + 1 < small.frameLen := by decide

theorem test_witness_CompleteEmitsFrame :
    (st .parsingPayload 0 5).cfg.legal = true ∧ (st .parsingPayload 0 5).phase = .parsingPayload
    ∧ (st .parsingPayload 0 5).cursor + 1 = small.frameLen := by decide

theorem test_witness_IdleKeepsState :
    (st .parsingPayload 0 3).cfg.legal = true ∧ (st .parsingPayload 0 3).phase ≠ .reserved := by decide

theorem test_witness_ResetGivesFreshState :
    (st .synced 0 0).cfg.legal = true ∧ (st .synced 0 0).phase ≠ .reserved
    ∧ (st .synced 0 0).cfg = (st .parsingPayload 0 3 memSingle).cfg
    ∧ nextOf (exec .reset (st .synced 0 0)) = some (st .syncing 0 0)
    ∧ nextOf (exec .reset (st .parsingPayload 0 3 memSingle)) = some (st .syncing 0 0 memSingle) := by decide

/-- A frame for each clause of R100. -/
theorem test_witness_DecodeClassifiesFrame :
    (st .syncing 0 0).cfg.legal = true ∧ (st .syncing 0 0).phase ≠ .reserved ∧ frameBad.length = small.frameLen ∧ checksumOk small frameBad = false
    ∧ checksumOk small frameSingle = true ∧ byteAt frameSingle 0 = small.msgSingle
    ∧ byteAt frameSingle 0 ≠ small.syncMarker
    ∧ checksumOk small frameBulk = true ∧ byteAt frameBulk 0 = small.msgBulk ∧ byteAt frameBulk 0 ≠ small.syncMarker
    ∧ checksumOk small frameUnknown = true ∧ byteAt frameUnknown 0 ≠ small.msgSingle
    ∧ byteAt frameUnknown 0 ≠ small.msgBulk
    ∧ markerSingle.legal = true ∧ frameMarker.length = markerSingle.frameLen
    ∧ checksumOk markerSingle frameMarker = true ∧ byteAt frameMarker 0 = markerSingle.syncMarker := by decide

theorem test_witness_ChecksumIsXorOfBytes :
    (st .syncing 0 0).cfg.legal = true ∧ (st .syncing 0 0).phase ≠ .reserved ∧ frameSingle.length = small.frameLen
    ∧ frameSingle = [0x01, 0x05, 0x00, 0x10, 0x00] ++ [0x14]
    ∧ ([0x10, 0x05, 0x00, 0x01, 0x00] : List Byte).Perm [0x01, 0x05, 0x00, 0x10, 0x00] := by decide

theorem test_witness_SingleReadingGivesSample :
    (st .syncing 0 0).cfg.legal = true ∧ (st .syncing 0 0).phase ≠ .reserved ∧ frameSingle.length = small.frameLen ∧ checksumOk small frameSingle = true
    ∧ byteAt frameSingle 0 = small.msgSingle ∧ byteAt frameSingle 0 ≠ small.syncMarker := by decide

theorem test_witness_BulkGivesNoSample :
    (st .syncing 0 0).cfg.legal = true ∧ (st .syncing 0 0).phase ≠ .reserved ∧ frameBulk.length = small.frameLen ∧ checksumOk small frameBulk = true
    ∧ byteAt frameBulk 0 = small.msgBulk ∧ byteAt frameBulk 0 ≠ small.syncMarker := by decide

theorem test_witness_UnknownTypeDropped :
    (st .syncing 0 0).cfg.legal = true ∧ (st .syncing 0 0).phase ≠ .reserved ∧ frameUnknown.length = small.frameLen ∧ checksumOk small frameUnknown = true
    ∧ byteAt frameUnknown 0 ≠ small.msgSingle ∧ byteAt frameUnknown 0 ≠ small.msgBulk
    ∧ markerSingle.legal = true ∧ checksumOk markerSingle frameMarker = true
    ∧ byteAt frameMarker 0 = markerSingle.syncMarker := by decide

/-- The checksum byte with bit 0 flipped, and bit 4 of bytes 3 and 5 flipped (as V-D6). -/
theorem test_witness_XorDetectsOddFlips :
    small.legal = true ∧ frameSingle.length = small.frameLen ∧ checksumOk small frameSingle = true
    ∧ frameBad = frameSingle.set 5 (byteAt frameSingle 5 ^^^ (1#8 <<< 0))
    ∧ ([0x01, 0x05, 0x00, 0x00, 0x00, 0x04] : Frame)
      = (frameSingle.set 3 (byteAt frameSingle 3 ^^^ (1#8 <<< 4))).set 5 (byteAt frameSingle 5 ^^^ (1#8 <<< 4)) := by
  decide

theorem test_witness_PayloadNotInterpreted :
    Config.legal { frameLen := 8 } = true
    ∧ checksumOk { frameLen := 8 } [0x01, 0x05, 0x00, 0x10, 0x00, 0x00, 0x00, 0x14] = true
    ∧ checksumOk { frameLen := 8 } [0x01, 0x05, 0x00, 0x10, 0x00, 0x03, 0x07, 0x10] = true
    ∧ ([0x01, 0x05, 0x00, 0x10, 0x00, 0x00, 0x00, 0x14] : Frame).take 5
      = ([0x01, 0x05, 0x00, 0x10, 0x00, 0x03, 0x07, 0x10] : Frame).take 5 := by decide

theorem test_witness_ResultHasSampleExactlyOnSample :
    (decodeFrame small frameSingle 7).sample = some sampleSingle := by decide

/-- A register for each clause of R121, bits 15:12 set. -/
theorem test_witness_TempDecodeClosedForm :
    (st .syncing 0 0).cfg.legal = true ∧ (st .syncing 0 0).phase ≠ .reserved ∧ (tempDecode small 0xF0 0x10).1.toNat = 0
    ∧ (tempDecode small 0xFF 0xF0).1.toNat = 1 ∧ small.tempNegMode = .complement
    ∧ (tempDecode { small with tempNegMode := .signMagnitude } 0xFF 0xF0).1.toNat = 1
    ∧ Config.legal { small with tempNegMode := .signMagnitude } = true := by decide

/-- The ends of the two's-complement range, the exception, and a register that is not sign-extended. -/
theorem test_witness_SignExtendedReadsTwosComplement :
    small.tempNegMode = .complement
    ∧ (-2048 < ((0xF8 : Byte) ++ (0x01 : Byte)).toInt ∧ ((0xF8 : Byte) ++ (0x01 : Byte)).toInt ≤ 2047)
    ∧ (-2048 < ((0x07 : Byte) ++ (0xFF : Byte)).toInt ∧ ((0x07 : Byte) ++ (0xFF : Byte)).toInt ≤ 2047)
    ∧ (0xF8 : Byte) ++ (0x00 : Byte) = 0xF800#16 := by decide

theorem test_witness_DegreesAreSixteenths : small.legal = true := by decide

theorem test_witness_RenderIsExactDecimal :
    (st .syncing 0 0).cfg.legal = true ∧ (st .syncing 0 0).phase ≠ .reserved ∧ (decimal (15 / 16)).head? = some '0'
    ∧ (fracDigits (2032 % 16)).getLast? = some '0' := by decide

theorem test_witness_RenderingIsInjective : renderTemp 1 0 = renderTemp 1 0 ∧ renderTemp 1 0 ≠ renderTemp 0 0 := by
  decide

theorem test_witness_TsEncodeNamesTheInstant :
    State.reset.cfg.legal = true ∧ State.reset.phase ≠ .reserved ∧ (0 : Int) ≤ 253402300799999 ∧ (253402300799999 : Int) ≤ 253402300799999 := by decide

/-- A string for each clause of R151, the year 1969 and the year 1970 among them. -/
theorem test_witness_TsDecodeTestsInOrder :
    (State.reset.cfg.legal = true ∧ State.reset.phase ≠ .reserved ∧ State.reset.cfg.tsSuffixCheck = .strict)
    ∧ (isAscii "2023".toList = true ∧ "2023".toList.length ≠ 29)
    ∧ (text1970.length = 29 ∧ isAscii text1970 = true ∧ text1970.drop 23 = ['0', '0', '0', '0', '0', '0'])
    ∧ "1970-01-01T00:00:00.001000001".toList.drop 23 ≠ ['0', '0', '0', '0', '0', '0']
    ∧ readFields ("1970-01-01 00:00:00.001000000".toList.take 23) = none
    ∧ (readFields ("1970-13-01T00:00:00.001000000".toList.take 23)).map fieldsOk = some false
    ∧ (readFields (text1969.take 23)).map (fun q => (fieldsOk q, q.y)) = some (true, 1969)
    ∧ (readFields (text1970.take 23)).map (fun q => (fieldsOk q, q.y)) = some (true, 1970) := by decide

theorem test_witness_TsDecodeOfEncode :
    Config.default.tsPad = ['0', '0', '0', '0', '0', '0'] ∧ encodeTimestamp Config.default 1 = some text1970 := by
  decide

/-- Under ANY a string of other padding decodes too (V-TS8). -/
theorem test_witness_TsEncodeOfDecode :
    Config.default.tsPad = ['0', '0', '0', '0', '0', '0'] ∧ Config.default.tsSuffixCheck = .strict
    ∧ decodeTimestamp Config.default text1970 = .millis 1
    ∧ decodeTimestamp { tsSuffixCheck := .any } "2023-11-14T22:13:20.000000001".toList = .millis 1700000000000 := by
  decide

theorem test_witness_TsDomainIsRefusedOutside :
    State.reset.cfg.legal = true ∧ State.reset.phase ≠ .reserved ∧ ((-1 : Int) < 0) ∧ (253402300799999 : Int) < 253402300800000
    ∧ text1969.length = 29 ∧ isAscii text1969 = true ∧ text1969.drop 23 = ['0', '0', '0', '0', '0', '0']
    ∧ (readFields (text1969.take 23)).map (fun q => (fieldsOk q, q.y)) = some (true, 1969) := by decide

theorem test_witness_FeedRunsByteSteps :
    (st .syncing 2 0).cfg.legal = true ∧ (st .syncing 2 0).phase ≠ .reserved
    ∧ nextOf (byteStep ⟨0xAA, 7⟩ (st .syncing 2 0)) = some (st .syncing 3 0)
    ∧ runBytes (stream [0xAA]) (st .syncing 3 0) = .next (st .synced 0 0, [Out.silent]) := by
  refine ⟨by decide, by decide, by decide, rfl⟩

theorem test_witness_PollFeedsLeftoverThenChunks :
    (st .syncing 0 0).cfg.legal = true ∧ (st .syncing 0 0).phase ≠ .reserved := by decide

/-- Two chunks against one with other draws; and a refusal. -/
theorem test_witness_RechunkingChangesOnlyTimes :
    dataOf [stream [0xAA], stream [0xAA]].flatten = dataOf [⟨0xAA, 1⟩, ⟨0xAA, 2⟩]
    ∧ runChunks [stream [0xAA], stream [0xAA]] (st .syncing 0 0) = .next (st .syncing 2 0, [Out.silent, Out.silent])
    ∧ runChunks [stream [0xAA]] (st .reserved 0 0) = .refused .reservedPhase := by
  refine ⟨by decide, rfl, rfl⟩

/-- The last time of the domain and the first after it. -/
theorem test_witness_SampleShowsItsRenderings :
    ({ sampleSingle with tsMs := 253402300799999 } : Sample).tsMs.toNat ≤ 253402300799999
    ∧ 253402300799999 < ({ sampleSingle with tsMs := 253402300800000 } : Sample).tsMs.toNat := by decide

/-- Four markers or more, from either phase, then byte 0, four bytes and the last one. -/
theorem test_witness_MarkerRunFramesWhatFollows :
    (st .syncing 2 0).cfg.legal = true ∧ ((st .syncing 2 0).phase = .syncing ∧ (st .synced 0 0).phase = .synced)
    ∧ small.syncThreshold ≤ (stream [0xAA, 0xAA, 0xAA, 0xAA]).length
    ∧ (∀ p ∈ stream [0xAA, 0xAA, 0xAA, 0xAA], p.data = small.syncMarker)
    ∧ (⟨0x01, 7⟩ : InByte).data ≠ small.syncMarker
    ∧ (stream [0x05, 0x00, 0x10, 0x00]).length = small.frameLen - 2 := by decide

/-- From the first byte on, and at the last byte. -/
theorem test_witness_FrameInProgressEnds :
    (st .parsingPayload 0 1).cfg.legal = true ∧ (st .parsingPayload 0 1).phase = .parsingPayload
    ∧ 1 ≤ (st .parsingPayload 0 1).cursor
    ∧ (st .parsingPayload 0 1).cursor + (stream [0xAA, 0xAA, 0xAA, 0xAA]).length + 1 = small.frameLen
    ∧ (st .parsingPayload 0 5).cursor + (stream []).length + 1 = small.frameLen := by decide

/-- Three markers and a non-marker (R92), and a run that counts from the `SYNC_CNT` it finds. -/
theorem test_witness_NoMarkerRunNoFrame :
    (st .syncing 0 0).cfg.legal = true ∧ (st .syncing 0 0).phase = .syncing
    ∧ ¬ List.replicate 4 (0xAA : Byte) <:+: (List.replicate 0 0xAA ++ dataOf (stream [0xAA, 0xAA, 0xAA, 0x42]))
    ∧ ¬ List.replicate 4 (0xAA : Byte) <:+: (List.replicate 2 0xAA ++ dataOf (stream [0xAA, 0x42])) := by decide

theorem test_witness_FramesAreNotChained :
    (nextOf (exec (.byteParsingComplete 0x14 7) (st .parsingPayload 0 5 memSingle))).isSome = true
    ∧ ¬ List.replicate small.syncThreshold small.syncMarker <:+: dataOf (stream frameSingle) := by decide

theorem test_witness_FrameBytesKeepStreamOrder :
    (st .synced 0 0).cfg.legal = true ∧ (st .synced 0 0).phase = .synced ∧ (⟨0x01, 7⟩ : InByte).data ≠ small.syncMarker
    ∧ (stream [0x05, 0x00, 0x10, 0x00]).length + 1 ≤ small.frameLen - 1 := by decide

/-- V-X4 at length 6. -/
theorem test_witness_BufferSurvivesTheNextPreamble :
    (nextOf (exec (.byteParsingComplete 0x14 7) (st .parsingPayload 0 5 memSingle))).isSome = true
    ∧ (stream [0xAA, 0xAA, 0xAA, 0xAA]).length = small.syncThreshold
    ∧ (∀ p ∈ stream [0xAA, 0xAA, 0xAA, 0xAA], p.data = small.syncMarker) ∧ (0x02 : Byte) ≠ small.syncMarker := by decide

theorem test_witness_ExactlyOneByteRow :
    (st .syncing 3 0).ctrl.phase ≠ .reserved ∧ StateInv (st .syncing 3 0)
    ∧ (selectRow (st .syncing 3 0).ctrl 0xAA).toOption = some .markLock
    ∧ StateInv (st .parsingPayload 0 5 memSingle)
    ∧ (selectRow (st .parsingPayload 0 5 memSingle).ctrl 0x14).toOption = some .complete := by decide

/-- One state for each clause of R196. -/
theorem test_witness_PortStepFollowsInputs :
    ({ st .syncing 3 0 with inputs := [.port ⟨1, 1, 0xAA, 0⟩] } : State).cfg.legal = true
    ∧ ({ st .syncing 3 0 with inputs := [.port ⟨1, 1, 0xAA, 0⟩] } : State).inputs = [.port ⟨1, 1, 0xAA, 0⟩]
    ∧ (⟨1, 1, 0xAA, 0⟩ : PortIn).rst = 1
    ∧ ((⟨0, 0, 0xAA, 0⟩ : PortIn).rst = 0 ∧ (⟨0, 0, 0xAA, 0⟩ : PortIn).inValid = 0)
    ∧ ((⟨0, 1, 0xAA, 0⟩ : PortIn).rst = 0 ∧ (⟨0, 1, 0xAA, 0⟩ : PortIn).inValid = 1)
    ∧ (st .syncing 3 0).phase ≠ .reserved ∧ (st .reserved 0 0).phase = .reserved := by decide

theorem test_witness_StepRunsDecodedInstruction :
    instrOf (decode (st .syncing 3 0).ctrl (bytePort 0xAA 7)) = some (.byteSyncingMarkLock 0xAA)
    ∧ errorOf (decode (st .reserved 0 0).ctrl (bytePort 0xAA 7)) = some .reservedPhase
    ∧ (st .syncing 3 0).inputs = [] := by decide

theorem test_witness_TableWordRunsNext : decodeTableWord 8 0xAA = some (.byteSyncingMarkCount 0xAA) := by decide

/-- A byte row, a frame row, and a row that asks nothing. -/
theorem test_witness_DecodeOfEncodeIsInstruction :
    (st .parsingPayload 0 5).ctrl.cfg.legal = true
    ∧ (wellFormed small (.byteParsingComplete 0x14 7) = true
      ∧ rowSelected (st .parsingPayload 0 5).ctrl (.byteParsingComplete 0x14 7) = true)
    ∧ (wellFormed small (.msgUnknown frameUnknown) = true
      ∧ rowSelected (st .parsingPayload 0 5).ctrl (.msgUnknown frameUnknown) = true)
    ∧ wellFormed small (.tsDecode text1970) = true := by decide

theorem test_witness_DecodeYieldsWellFormed :
    instrOf (decode (st .synced 0 0).ctrl (bytePort 0x01 7)) = some (.byteSyncedStart 0x01) := by decide

/-- A step in each phase from a state that meets the invariant. -/
theorem test_witness_StepKeepsInvariant :
    (StateInv (st .syncing 3 0) ∧ (nextOf (step (st .syncing 3 0))).isSome = true)
    ∧ StateInv ((st .synced 0 0 memSingle).setInputs [bytePort 0x01 7])
    ∧ StateInv ((st .parsingPayload 0 5 memSingle).setInputs [bytePort 0x14 7])
    ∧ (nextOf (step ((st .parsingPayload 0 5 memSingle).setInputs [bytePort 0x14 7]))).isSome = true
    ∧ ¬ StateInv (st .parsingPayload 0 0) := by
  refine ⟨⟨by decide, by decide⟩, by decide, by decide, by decide, by decide⟩

theorem test_witness_LaunchMeetsInvariant : launch (st .syncing 0 0 memSingle) := by decide

theorem test_witness_RunsOfEventsNeverStop : StateInv (st .parsingPayload 0 5 memSingle) := by decide

/-- Each of the four transitions of R24, and a step that keeps the phase. -/
theorem test_witness_PhaseChangesOnlyByFourRules :
    regsOf (exec (.byteSyncingMarkLock 0xAA) (st .syncing 3 0)) = some (.synced, 0, 0)
    ∧ regsOf (exec (.byteSyncedStart 0x01) (st .synced 0 0)) = some (.parsingPayload, 0, 1)
    ∧ regsOf (exec (.byteParsingComplete 0x14 7) (st .parsingPayload 0 5)) = some (.syncing, 0, 0)
    ∧ regsOf (exec .reset (st .parsingPayload 0 3)) = some (.syncing, 0, 0)
    ∧ regsOf (exec .idle (st .synced 0 0)) = some (.synced, 0, 0) := by decide

theorem test_witness_OnlyNamedRowsWriteCounters :
    regsOf (exec (.byteSyncingMarkCount 0xAA) (st .syncing 2 0)) = some (.syncing, 3, 0)
    ∧ regsOf (exec (.byteParsingAppend 0xAA) (st .parsingPayload 0 1)) = some (.parsingPayload, 0, 2) := by decide

theorem test_witness_ByteRowsStoreOnlyTheirOffset :
    rowOf (.byteParsingAppend 0xAA) = some (.append, 0xAA)
    ∧ (nextOf (exec (.byteParsingAppend 0xAA) (st .parsingPayload 0 1))).isSome = true
    ∧ storeOffset (st .parsingPayload 0 1) .append = some 1 ∧ storeOffset (st .parsingPayload 0 1) .append ≠ some 0
    ∧ storeOffset (st .syncing 0 0) .other ≠ some 0 := by decide

theorem test_witness_CallsKeepParserState :
    rowOf (.tempRender 1 16) = none ∧ (nextOf (exec (.tempRender 1 16) (st .syncing 2 0))).isSome = true := by decide

theorem test_witness_ParametersNeverChange :
    (nextOf (exec (.feed (stream [0xAA])) (st .syncing 2 0))).isSome = true := by decide

theorem test_witness_IllegalConfigurationIsRefused :
    (¬ 6 ≤ ({ frameLen := 5 } : Config).frameLen) ∧ Config.legal { frameLen := 5 } = false
    ∧ (6 ≤ small.frameLen ∧ small.tempLsb.1 * 16 = small.tempLsb.2 ∧ small.msgSingle ≠ small.msgBulk) := by decide

theorem test_witness_FormsThatAreRefused :
    (st .synced 0 0).cfg.legal = true
    ∧ (rowOf (.byteSyncingOther 0x42) = some (.other, 0x42) ∧ rowHolds (st .synced 0 0).ctrl 0x42 .other = false)
    ∧ ([0x01] : Frame).length ≠ small.frameLen
    ∧ (frameBad.length = small.frameLen ∧ checksumOk small frameBad = false) ∧ (st .synced 0 0).phase ≠ .reserved
    ∧ (frameBulk.length = small.frameLen ∧ byteAt frameBulk 0 ≠ small.msgSingle ∧ byteAt frameSingle 0 ≠ small.msgBulk)
    ∧ byteAt frameMarker 0 = markerSingle.syncMarker
    ∧ (byteAt frameSingle 0 = small.msgSingle ∧ byteAt frameSingle 0 ≠ small.syncMarker) := by decide

/-- The first character outside ASCII, and the last inside. -/
theorem test_witness_NonAsciiTextHasFreeResult :
    State.reset.cfg.legal = true ∧ State.reset.phase ≠ .reserved ∧ isAscii [Char.ofNat 128] = false
    ∧ isAscii [Char.ofNat 127] = true := by decide

theorem test_witness_ReservedPhaseIsRefused :
    (st .reserved 0 0).cfg.legal = true ∧ (st .reserved 0 0).phase = .reserved ∧ (st .reserved 0 0).inputs = []
    ∧ ((st .reserved 0 0).setInputs [bytePort 0xAA 7]).inputs = .port ⟨0, 1, 0xAA, 7⟩ :: [] := by decide

theorem test_witness_OutputsExactlyOnCompletion :
    (nextOf (exec (.byteParsingComplete 0x14 7) (st .parsingPayload 0 5 memSingle))).map (·.out.frame)
      = some (some frameSingle) := by decide

theorem test_witness_PortsShowTheOutput :
    (nextOf (step ((st .parsingPayload 0 5 memSingle).setInputs [bytePort 0x14 7]))).map (·.out)
      = some ⟨some frameSingle, some ⟨.evSample, 5, some sampleSingle⟩⟩ := by decide

/-- The largest values the invariant allows. -/
theorem test_witness_CountersFitTheirRegisters :
    StateInv (st .syncing 3 0) ∧ StateInv (st .parsingPayload 0 5 memSingle) := by decide

end Sys2Proof.Tests
end

section
/-!
The decoder row by row: the dispatch and the row conditions of R61 say the same, and what each part of the decoder
yields is well formed, selected, and has the request's bytes (30_encoding.md R60, R61, R65, R67).
-/

namespace Sys2Proof.Machine

/-- The dispatch of R88 selects exactly the row whose condition in R61 holds. -/
theorem selectRow_eq_ok_iff {c : Ctrl} {b : Byte} {row : ByteRow} :
    selectRow c b = .ok row ↔ rowHolds c b row = true := by
  obtain ⟨cfg, phase, n, k⟩ := c
  cases phase with
  | syncing =>
    cases hm : isMarker cfg b with
    | false => cases row <;> simp [selectRow, rowHolds, hm]
    | true =>
      rcases Nat.lt_or_ge (n + 1) cfg.syncThreshold with hn | hn <;> cases row <;>
        simp [selectRow, rowHolds, hm, hn, Nat.not_lt.2, Nat.not_le.2]
  | synced => cases hm : isMarker cfg b <;> cases row <;> simp [selectRow, rowHolds, hm]
  | parsingPayload =>
    rcases Nat.lt_or_ge (k + 1) cfg.frameLen with hk | hk <;> cases row <;>
      simp [selectRow, rowHolds, hk, Nat.not_lt.2, Nat.not_le.2]
  | reserved => cases row <;> simp [selectRow, rowHolds]

@[simp] theorem rowSelected_rowInstr (c : Ctrl) (b : Byte) (n : Millis) (row : ByteRow) :
    rowSelected c (rowInstr b n row) = rowHolds c b row := by
  cases row <;> rfl

@[simp] theorem encodeWords_rowInstr (b : Byte) (n : Millis) (row : ByteRow) :
    encodeWords (rowInstr b n row) = some [b] := by
  cases row <;> rfl

/-- A row's condition includes its byte class. -/
theorem wellFormed_rowInstr {c : Ctrl} {b : Byte} {row : ByteRow} (n : Millis) (h : rowHolds c b row = true) :
    wellFormed c.cfg (rowInstr b n row) = true := by
  cases row with
  | markCount => exact isMarker_iff.2 (rowHolds_markCount_iff.1 h).2.1
  | markLock => exact isMarker_iff.2 (rowHolds_markLock_iff.1 h).2.1
  | markSkip => exact isMarker_iff.2 (rowHolds_markSkip_iff.1 h).2
  | other => simpa [rowInstr, wellFormed, isMarker] using (rowHolds_other_iff.1 h).2
  | start => simpa [rowInstr, wellFormed, isMarker] using (rowHolds_start_iff.1 h).2
  | append | complete => rfl

/-- What the ports can select: RESET, IDLE, or the row whose condition holds of the offered byte (R196). -/
theorem decodePort_eq_ok {c : Ctrl} {p : PortIn} {i : Instr} (h : decodePort c p = .ok i) :
    (p.rst = 1 ∧ i = .reset)
    ∨ (p.rst ≠ 1 ∧ p.inValid ≠ 1 ∧ i = .idle)
    ∨ ∃ row, p.rst ≠ 1 ∧ p.inValid = 1 ∧ rowHolds c p.inData row = true ∧ i = rowInstr p.inData p.nowMs row := by
  unfold decodePort at h
  split at h
  next hr => exact .inl ⟨hr, by simpa using h.symm⟩
  next hr =>
    split at h
    next hv =>
      cases hs : selectRow c p.inData with
      | error e => rw [hs] at h; cases h
      | ok row =>
        rw [hs] at h
        exact .inr (.inr ⟨row, hr, hv, selectRow_eq_ok_iff.1 hs, by simpa [Except.map] using h.symm⟩)
    next hv => exact .inr (.inl ⟨hr, hv, by simpa using h.symm⟩)

theorem wellFormed_decodeFrameOp {c : Config} {f : Frame} (n : Millis) (op : FrameOp) (h : isFrame c f = true) :
    wellFormed c (decodeFrameOp c f n op) = true := by
  cases op with
  | decode | checksum => exact h
  | message =>
    cases hs : isSingle c (typeOf f) <;> cases hb : isBulk c (typeOf f) <;>
      simp [decodeFrameOp, wellFormed, h, hs, hb]

/-- A frame operation asks nothing of the control state. -/
@[simp] theorem rowSelected_decodeFrameOp (c : Ctrl) (cfg : Config) (f : Frame) (n : Millis) (op : FrameOp) :
    rowSelected c (decodeFrameOp cfg f n op) = true := by
  cases op with
  | decode | checksum => rfl
  | message =>
    unfold decodeFrameOp
    split_ifs <;> rfl

@[simp] theorem encodeWords_decodeFrameOp (c : Config) (f : Frame) (n : Millis) (op : FrameOp) :
    encodeWords (decodeFrameOp c f n op) = some f := by
  cases op with
  | decode | checksum => rfl
  | message =>
    unfold decodeFrameOp
    split_ifs <;> rfl

theorem decode_of_illegal {c : Ctrl} (r : Request) (h : c.cfg.legal = false) :
    decode c r = .error .illegalConfig := by
  simp [decode, h]

theorem legal_of_decode_eq_ok {c : Ctrl} {r : Request} {i : Instr} (h : decode c r = .ok i) : c.cfg.legal = true := by
  by_contra hl
  rw [decode_of_illegal r (by simpa using hl)] at h
  cases h

/-- Under legal parameters a request on the ports is the port-level step of R196. -/
theorem decode_port {c : Ctrl} (p : PortIn) (h : c.cfg.legal = true) : decode c (.port p) = decodePort c p := by
  simp [decode, h]

theorem decode_frame_eq_ok {c : Ctrl} {op : FrameOp} {f : List Byte} {n : Millis} {i : Instr}
    (h : decode c (.frame op f n) = .ok i) : isFrame c.cfg f = true ∧ i = decodeFrameOp c.cfg f n op := by
  have hl := legal_of_decode_eq_ok h
  cases hf : isFrame c.cfg f <;> simp_all [decode]

theorem decode_temperature_eq_ok {c : Ctrl} {bytes : List Byte} {i : Instr}
    (h : decode c (.temperature bytes) = .ok i) : ∃ low high, bytes = [low, high] ∧ i = .tempDecode high low := by
  have hl := legal_of_decode_eq_ok h
  match bytes with
  | [low, high] => exact ⟨low, high, rfl, by simpa [decode, hl, eq_comm] using h⟩
  | [] | [_] | _ :: _ :: _ :: _ => simp [decode, hl] at h

end Sys2Proof.Machine
end

section
/-!
One step as fetch, decode and exec (R11, R88), and the refusal of R7: every instruction begins with the check that the
state has a meaning.
-/

namespace Sys2Proof.Machine

/-- Every arm of the dispatch goes on only in a state the spec gives a meaning (R7, R66). -/
theorem exists_exec_eq_whenDefined (i : Instr) (s : State) : ∃ k, exec i s = whenDefined s k := by
  cases i <;> exact ⟨_, rfl⟩

theorem exec_of_illegal {s : State} (i : Instr) (h : s.cfg.legal = false) : exec i s = .refused .illegalConfig := by
  obtain ⟨k, hk⟩ := exists_exec_eq_whenDefined i s
  rw [hk, whenDefined_of_illegal k h]

theorem step_of_decode_ok {s : State} {r : Request} {rest : List Request} {i : Instr} (hs : s.inputs = r :: rest)
    (hd : decode s.ctrl r = .ok i) : step s = exec i (s.setInputs rest) := by
  simp only [step, fetch_cons hs, State.setInputs_ctrl, hd]

theorem step_of_decode_error {s : State} {r : Request} {rest : List Request} {e : DecodeError}
    (hs : s.inputs = r :: rest) (hd : decode s.ctrl r = .error e) : step s = .refused (refusalOf e) := by
  simp only [step, fetch_cons hs, State.setInputs_ctrl, hd]

theorem decode_encode_idle {c : Ctrl} (h : c.cfg.legal = true) : decode c (encode .idle) = .ok .idle := by
  simp [encode, decode_port _ h, decodePort]

/-- With nothing offered the step is IDLE; an illegal configuration refuses both alike. -/
theorem step_of_nil {s : State} (hs : s.inputs = []) : step s = exec .idle s := by
  cases hl : s.cfg.legal with
  | true => simp only [step, fetch_nil hs, decode_encode_idle (c := s.ctrl) hl]
  | false =>
    rw [exec_of_illegal _ hl]
    simp only [step, fetch_nil hs, decode_of_illegal (c := s.ctrl) _ hl, refusalOf]

theorem step_of_illegal {s : State} (h : s.cfg.legal = false) : step s = .refused .illegalConfig := by
  cases hs : s.inputs with
  | nil => rw [step_of_nil hs, exec_of_illegal _ h]
  | cons r rest => exact step_of_decode_error hs (decode_of_illegal (c := s.ctrl) r h)

end Sys2Proof.Machine
end

section
/-!
The register widths of R8: `ceilLog2` bits number enough values, and the invariant bounds both counters.
-/

namespace Sys2Proof.Safety

open Sys2Proof.Machine

/-- `ceilLog2 n` bits have at least `n` values, within the range `ceilLog2` searches. -/
theorem le_two_pow_ceilLog2 {n : Nat} (h : n ≤ 2 ^ 17) : n ≤ 2 ^ ceilLog2 n := by
  unfold ceilLog2
  cases hk : (List.range 18).find? fun k => decide (n ≤ 2 ^ k) with
  | some k => simpa using List.find?_some hk
  | none => exact absurd h (by simpa using List.find?_eq_none.1 hk 17 (by decide))

theorem StateInv.syncCnt_lt {s : State} (h : StateInv s) : s.syncCnt < s.cfg.syncThreshold := by
  obtain ⟨hl, ⟨hsyncing, hsynced, hparsing, hreserved⟩, -, -⟩ := h
  have hpos : 1 ≤ s.cfg.syncThreshold := (legal_iff.1 hl).1
  cases hp : s.phase with
  | syncing => have := (hsyncing hp).1; omega
  | synced => have := (hsynced hp).1; omega
  | parsingPayload => have := (hparsing hp).1; omega
  | reserved => exact absurd hp hreserved

theorem StateInv.cursor_lt {s : State} (h : StateInv s) : s.cursor < s.cfg.frameLen := by
  obtain ⟨hl, ⟨hsyncing, hsynced, hparsing, hreserved⟩, -, -⟩ := h
  obtain ⟨-, -, hlen, -⟩ := legal_iff.1 hl
  cases hp : s.phase with
  | syncing => have := (hsyncing hp).2; omega
  | synced => have := (hsynced hp).2; omega
  | parsingPayload => obtain ⟨-, -, hcursor, -⟩ := hparsing hp; omega
  | reserved => exact absurd hp hreserved

theorem syncThreshold_le_two_pow {c : Config} (h : c.legal = true) : c.syncThreshold ≤ 2 ^ c.syncCntWidth := by
  obtain ⟨-, hmax, -⟩ := legal_iff.1 h
  calc c.syncThreshold ≤ 2 ^ ceilLog2 c.syncThreshold := le_two_pow_ceilLog2 (by omega)
    _ ≤ 2 ^ c.syncCntWidth := Nat.pow_le_pow_right (by decide) (Nat.le_max_right ..)

theorem frameLen_lt_two_pow {c : Config} (h : c.legal = true) : c.frameLen < 2 ^ c.cursorWidth := by
  obtain ⟨-, -, -, hmax, -⟩ := legal_iff.1 h
  exact le_two_pow_ceilLog2 (n := c.frameLen + 1) (by omega)

end Sys2Proof.Safety
end

section
/-! The obligations of 00_scope.md. -/

namespace Sys2Proof.Proofs

open Sys2Proof.Machine Sys2Proof.Safety

/-- Settles O44: by the format of the request, and on the ports by what they select. -/
theorem decodeYieldsWellFormed : Obligations.DecodeYieldsWellFormed := by
  intro c r i h
  have hl := legal_of_decode_eq_ok h
  refine ⟨hl, ?_⟩
  cases r with
  | port p =>
    rw [decode_port p hl] at h
    obtain ⟨hr, rfl⟩ | ⟨hr, hv, rfl⟩ | ⟨row, hr, hv, hrow, rfl⟩ := decodePort_eq_ok h
    · exact ⟨rfl, rfl, (if_neg fun hb => hb.1 hr).symm⟩
    · exact ⟨rfl, rfl, (if_neg fun hb => hv hb.2).symm⟩
    · exact ⟨wellFormed_rowInstr _ hrow, (rowSelected_rowInstr ..).trans hrow,
        (encodeWords_rowInstr ..).trans (if_pos ⟨hr, hv⟩).symm⟩
  | frame op f n =>
    obtain ⟨hf, rfl⟩ := decode_frame_eq_ok h
    exact ⟨wellFormed_decodeFrameOp n op hf, rowSelected_decodeFrameOp .., encodeWords_decodeFrameOp ..⟩
  | temperature bytes =>
    obtain ⟨low, high, rfl, rfl⟩ := decode_temperature_eq_ok h
    exact ⟨rfl, rfl, rfl⟩
  | tempRender | feed | poll | tsEncode | tsDecode =>
    simp only [decode, hl, Bool.not_true, Bool.false_eq_true, if_false, Except.ok.injEq] at h
    subst h
    exact ⟨rfl, rfl, rfl⟩

/-- Settles O58: the invariant keeps each counter below the number of values its width is made for. -/
theorem countersFitTheirRegisters : Obligations.CountersFitTheirRegisters := by
  refine ⟨fun s h => ⟨?_, ?_⟩, by decide, by decide⟩
  · exact Nat.lt_of_lt_of_le (StateInv.syncCnt_lt h) (syncThreshold_le_two_pow h.1)
  · exact Nat.lt_trans (StateInv.cursor_lt h) (frameLen_lt_two_pow h.1)

/-- Settles O41: by what `fetch` finds in the queue and what the decoder answers. -/
theorem stepRunsDecodedInstruction : Obligations.StepRunsDecodedInstruction := fun _ =>
  ⟨fun _ _ _ hs hd => step_of_decode_ok hs hd, fun _ _ _ hs hd => step_of_decode_error hs hd, step_of_nil⟩

/-- Settles O54: `legal` is the conjunction of R7's conditions, and without it nothing runs. -/
theorem illegalConfigurationIsRefused : Obligations.IllegalConfigurationIsRefused := by
  rintro s c rfl
  rw [← Nat.pos_iff_ne_zero, ← legal_iff]
  refine ⟨fun h => ?_, id⟩
  have hl : s.cfg.legal = false := by simpa using h
  exact ⟨fun i => exec_of_illegal i hl, step_of_illegal hl⟩

end Sys2Proof.Proofs
end

section
/-!
What each instruction can do. A byte row has one next state, `rowNext`; every other instruction is IDLE, RESET, a call
that only answers, or a run of BYTE steps followed by an answer (40_synchronizer.md R80 to R88, 43_host_interface.md).
-/

namespace Sys2Proof.Machine

/-- The next state of a byte row, whose store, if it has one, comes last (R80 to R86). -/
def rowNext (b : Byte) (nowMs : Millis) (s : State) : ByteRow → State
  | .markCount => (s.setSyncCnt (s.syncCnt + 1)).emit Out.silent
  | .markLock => ((s.setPhase .synced).setSyncCnt 0).emit Out.silent
  | .other => (s.setSyncCnt 0).emit Out.silent
  | .markSkip => s.emit Out.silent
  | .start => (((s.setCursor 1).setPhase .parsingPayload).emit Out.silent).setFbuf (s.fbuf.write 0 b)
  | .append => ((s.setCursor (s.cursor + 1)).emit Out.silent).setFbuf (s.fbuf.write s.cursor b)
  | .complete =>
    ((((s.setCursor 0).setPhase .syncing).setSyncCnt 0).emit (completionOut b nowMs s)).setFbuf
      (s.fbuf.write (s.cfg.frameLen - 1) b)

@[simp] theorem rowNext_cfg (b : Byte) (n : Millis) (s : State) (row : ByteRow) :
    (rowNext b n s row).cfg = s.cfg := by
  cases row <;> rfl

@[simp] theorem rowNext_inputs (b : Byte) (n : Millis) (s : State) (row : ByteRow) :
    (rowNext b n s row).inputs = s.inputs := by
  cases row <;> rfl

@[simp] theorem rowOf_rowInstr (b : Byte) (n : Millis) (row : ByteRow) : rowOf (rowInstr b n row) = some (row, b) := by
  cases row <;> rfl

theorem phase_ne_reserved_of_rowHolds {c : Ctrl} {b : Byte} {row : ByteRow} (h : rowHolds c b row = true) :
    c.phase ≠ .reserved := by
  intro hp
  cases row <;> simp [rowHolds, hp] at h

/-- A byte row runs nowhere but where its condition holds. -/
theorem exists_exec_rowInstr_eq_onRow (b : Byte) (n : Millis) (row : ByteRow) (s : State) :
    ∃ k, exec (rowInstr b n row) s = onRow s (rowHolds s.ctrl b row) k := by
  cases row <;> exact ⟨_, rfl⟩

/-- Where its condition holds a byte row completes: its store, if any, lies in the buffer. -/
theorem exec_rowInstr_of_holds {b : Byte} {row : ByteRow} {s : State} (n : Millis) (hl : s.cfg.legal = true)
    (h : rowHolds s.ctrl b row = true) : exec (rowInstr b n row) s = .next (rowNext b n s row) := by
  have hp : s.phase ≠ .reserved := phase_ne_reserved_of_rowHolds h
  obtain ⟨-, -, hlen, -⟩ := legal_iff.1 hl
  cases row with
  | markCount | markLock | other | markSkip => exact onRow_of_holds _ hl hp h
  | start => exact (onRow_of_holds _ hl hp h).trans (memWrite_of_lt b (show 0 < s.cfg.frameLen by omega))
  | append =>
    have hc : s.cursor + 1 < s.cfg.frameLen := (rowHolds_append_iff.1 h).2
    exact (onRow_of_holds _ hl hp h).trans (memWrite_of_lt b (show s.cursor < s.cfg.frameLen by omega))
  | complete =>
    exact (onRow_of_holds _ hl hp h).trans (memWrite_of_lt b (show s.cfg.frameLen - 1 < s.cfg.frameLen by omega))

theorem exec_rowInstr_eq_next_iff {b : Byte} {n : Millis} {row : ByteRow} {s t : State} :
    exec (rowInstr b n row) s = .next t ↔
      s.cfg.legal = true ∧ rowHolds s.ctrl b row = true ∧ t = rowNext b n s row := by
  constructor
  · intro h
    obtain ⟨k, hk⟩ := exists_exec_rowInstr_eq_onRow b n row s
    obtain ⟨hl, -, hrow, -⟩ := onRow_next.1 (hk.symm.trans h)
    rw [exec_rowInstr_of_holds n hl hrow] at h
    cases h
    exact ⟨hl, hrow, rfl⟩
  · rintro ⟨hl, hrow, rfl⟩
    exact exec_rowInstr_of_holds n hl hrow

theorem byteStep_of_holds {b : InByte} {row : ByteRow} {s : State} (hl : s.cfg.legal = true)
    (h : rowHolds s.ctrl b.data row = true) : byteStep b s = .next (rowNext b.data b.nowMs s row) :=
  (byteStep_of_row (selectRow_eq_ok_iff.2 h)).trans (exec_rowInstr_of_holds _ hl h)

/-- A BYTE step that goes on is the next state of a row whose condition holds. -/
theorem byteStep_next {b : InByte} {s t : State} (h : byteStep b s = .next t) :
    ∃ row, rowHolds s.ctrl b.data row = true ∧ t = rowNext b.data b.nowMs s row := by
  cases hs : selectRow s.ctrl b.data with
  | error e => rw [byteStep_of_error hs] at h; cases h
  | ok row =>
    rw [byteStep_of_row hs] at h
    obtain ⟨-, hrow, ht⟩ := exec_rowInstr_eq_next_iff.1 h
    exact ⟨row, hrow, ht⟩

/-- What every byte row keeps, a run of BYTE steps keeps. -/
theorem runBytes_preserves {P : State → Prop}
    (hrow : ∀ (s : State) (b : Byte) (n : Millis) (row : ByteRow), rowHolds s.ctrl b row = true → P s →
      P (rowNext b n s row))
    {w : List InByte} {s t : State} {outs : List Out} (h : runBytes w s = .next (t, outs)) (hs : P s) : P t := by
  induction w generalizing s outs with
  | nil => cases h; exact hs
  | cons b w ih =>
    obtain ⟨s₁, rest, hb, hw, -⟩ := runBytes_cons_next h
    obtain ⟨row, hholds, rfl⟩ := byteStep_next hb
    exact ih hw (hrow s b.data b.nowMs row hholds hs)

theorem runBytes_cfg_inputs {w : List InByte} {s t : State} {outs : List Out} (h : runBytes w s = .next (t, outs)) :
    t.cfg = s.cfg ∧ t.inputs = s.inputs :=
  runBytes_preserves (P := fun u => u.cfg = s.cfg ∧ u.inputs = s.inputs)
    (fun u b n row _ hu => by rwa [rowNext_cfg, rowNext_inputs]) h ⟨rfl, rfl⟩

/-- What an instruction that completes can do to the state. -/
inductive Effect : Instr → State → State → Prop where
  | row {b : Byte} {row : ByteRow} {s : State} (n : Millis) (holds : rowHolds s.ctrl b row = true) :
      Effect (rowInstr b n row) s (rowNext b n s row)
  | idle {s : State} : Effect .idle s (s.emit Out.silent)
  | reset {s : State} :
      Effect .reset s ((((s.setPhase .syncing).setSyncCnt 0).setCursor 0).emit Out.silent)
  | call {i : Instr} {s : State} (r : Reply) (noRow : rowOf i = none) : Effect i s (s.answer r)
  | feed {w : List InByte} {s s' : State} {outs : List Out} (r : Reply) (run : runBytes w s = .next (s', outs)) :
      Effect (.feed w) s (s'.answer r)
  | poll {l : List InByte} {cs : List (List InByte)} {s s' : State} {outs : List Out} (r : Reply)
      (run : runBytes (l ++ cs.flatten) s = .next (s', outs)) : Effect (.poll l cs) s (s'.answer r)

theorem legal_of_exec_eq_next {i : Instr} {s t : State} (h : exec i s = .next t) :
    s.cfg.legal = true ∧ s.phase ≠ .reserved := by
  obtain ⟨k, hk⟩ := exists_exec_eq_whenDefined i s
  obtain ⟨hl, hp, -⟩ := whenDefined_next.1 (hk.symm.trans h)
  exact ⟨hl, hp⟩

theorem feedThen_next {w : List InByte} {reply : List Result → Reply} {s t : State}
    (h : feedThen w reply s = .next t) :
    ∃ s' outs, runBytes w s = .next (s', outs) ∧ t = s'.answer (reply (resultsOf outs)) := by
  unfold feedThen at h
  split at h
  next s' outs hr => exact ⟨s', outs, hr, by simpa using h.symm⟩
  next => cases h
  next => cases h

theorem Effect.of_byteRow {b : Byte} {n : Millis} {row : ByteRow} {s t : State}
    (h : exec (rowInstr b n row) s = .next t) : Effect (rowInstr b n row) s t := by
  obtain ⟨-, hrow, rfl⟩ := exec_rowInstr_eq_next_iff.1 h
  exact .row n hrow

theorem Effect.of_tsEncode {x : Int} {s t : State} (h : exec (.tsEncode x) s = .next t) :
    Effect (.tsEncode x) s t := by
  obtain ⟨hl, hp⟩ := legal_of_exec_eq_next h
  cases hx : encodeTimestamp s.cfg x with
  | none => rw [tsEncode_refused hl hp hx] at h; cases h
  | some text => rw [tsEncode_next hl hp hx] at h; cases h; exact .call _ rfl

theorem Effect.of_tsDecode {x : Text} {s t : State} (h : exec (.tsDecode x) s = .next t) :
    Effect (.tsDecode x) s t := by
  obtain ⟨hl, hp⟩ := legal_of_exec_eq_next h
  cases hx : tsDecodeOutcome s.cfg x with
  | millis m => rw [tsDecode_millis hl hp hx] at h; cases h; exact .call _ rfl
  | formatError e => rw [tsDecode_formatError hl hp hx] at h; cases h; exact .call _ rfl
  | outOfDomain => rw [tsDecode_outOfDomain hl hp hx] at h; cases h

/-- Every instruction that completes does one of the things `Effect` lists. -/
theorem exec_effect {i : Instr} {s t : State} (h : exec i s = .next t) : Effect i s t := by
  cases i with
  | byteSyncingMarkCount b => exact Effect.of_byteRow (n := 0) (row := .markCount) h
  | byteSyncingMarkLock b => exact Effect.of_byteRow (n := 0) (row := .markLock) h
  | byteSyncingOther b => exact Effect.of_byteRow (n := 0) (row := .other) h
  | byteSyncedMarkSkip b => exact Effect.of_byteRow (n := 0) (row := .markSkip) h
  | byteSyncedStart b => exact Effect.of_byteRow (n := 0) (row := .start) h
  | byteParsingAppend b => exact Effect.of_byteRow (n := 0) (row := .append) h
  | byteParsingComplete b n => exact Effect.of_byteRow (row := .complete) h
  | idle => obtain ⟨-, -, h⟩ := whenDefined_next.1 h; cases h; exact .idle
  | reset => obtain ⟨-, -, h⟩ := whenDefined_next.1 h; cases h; exact .reset
  | decode | checksum => obtain ⟨-, -, -, h⟩ := onFrame_next.1 h; cases h; exact .call _ rfl
  | msgSingle | msgBulk | msgUnknown =>
    obtain ⟨-, -, -, h⟩ := onFrame_next.1 h
    obtain ⟨-, -, -, h⟩ := onRow_next.1 h
    cases h
    exact .call _ rfl
  | tempDecode | tempRender => obtain ⟨-, -, h⟩ := whenDefined_next.1 h; cases h; exact .call _ rfl
  | feed w =>
    obtain ⟨-, -, h⟩ := whenDefined_next.1 h
    obtain ⟨s', outs, hr, rfl⟩ := feedThen_next h
    exact .feed _ hr
  | poll l cs =>
    obtain ⟨-, -, h⟩ := whenDefined_next.1 h
    obtain ⟨s', outs, hr, rfl⟩ := feedThen_next h
    exact .poll _ hr
  | tsEncode x => exact Effect.of_tsEncode h
  | tsDecode x => exact Effect.of_tsDecode h

/-- A step that goes on runs some instruction in the state with the request taken from the queue. -/
theorem step_next {s t : State} (h : step s = .next t) : ∃ i rs, exec i (s.setInputs rs) = .next t := by
  cases hs : s.inputs with
  | nil => exact ⟨.idle, s.inputs, (step_of_nil hs).symm.trans h⟩
  | cons r rest =>
    cases hd : decode s.ctrl r with
    | error e => rw [step_of_decode_error hs hd] at h; cases h
    | ok i => exact ⟨i, rest, (step_of_decode_ok hs hd).symm.trans h⟩

/-- COMPLETE puts out the frame it makes with its verdict, every other instruction nothing (R30, R86). -/
theorem exec_out {i : Instr} {s t : State} (h : exec i s = .next t) :
    ((∀ b n, i ≠ .byteParsingComplete b n) ∧ t.out = Out.silent)
    ∨ ∃ b n, i = .byteParsingComplete b n ∧ t.out = completionOut b n s := by
  cases exec_effect h with
  | @row b row s n holds =>
    cases row with
    | complete => exact .inr ⟨b, n, rfl, rfl⟩
    | markCount | markLock | other | markSkip | start | append => exact .inl ⟨nofun, rfl⟩
  | idle | reset | feed | poll => exact .inl ⟨nofun, rfl⟩
  | call r noRow => exact .inl ⟨fun b n hi => (by rw [hi] at noRow; cases noRow), rfl⟩

/-- A completed frame has `FRAME_LEN` bytes (R29). -/
theorem length_completedFrame {s : State} (b : Byte) (hl : s.cfg.legal = true) :
    (completedFrame b s).length = s.cfg.frameLen := by
  obtain ⟨-, -, hlen, -⟩ := legal_iff.1 hl
  simp only [completedFrame, List.length_append, length_memRead, List.length_singleton]
  omega

/-- The four verdicts of R100. -/
theorem decodeFrame_cases (c : Config) (f : Frame) (n : Millis) :
    decodeFrame c f n = crcFailResult f ∨ decodeFrame c f n = singleResult c f n
      ∨ decodeFrame c f n = bulkResult f ∨ decodeFrame c f n = unknownResult f := by
  unfold decodeFrame
  split_ifs <;> simp

end Sys2Proof.Machine
end

section
/-!
The reachable-state invariant of 10_state.md R26, phase by phase, and that every byte row and every instruction keeps it.
-/

namespace Sys2Proof.Safety

open Sys2Proof.Machine

theorem stateInv_iff_of_syncing {s : State} (hp : s.phase = .syncing) : StateInv s ↔
    s.cfg.legal = true ∧ (s.syncCnt ≤ s.cfg.syncThreshold - 1 ∧ s.cursor = 0)
      ∧ s.fbuf.wf ∧ s.fbuf.inRange s.cfg.frameLen := by
  simp [StateInv, phaseInv, hp]

theorem stateInv_iff_of_synced {s : State} (hp : s.phase = .synced) : StateInv s ↔
    s.cfg.legal = true ∧ (s.syncCnt = 0 ∧ s.cursor = 0) ∧ s.fbuf.wf ∧ s.fbuf.inRange s.cfg.frameLen := by
  simp [StateInv, phaseInv, hp]

theorem stateInv_iff_of_parsingPayload {s : State} (hp : s.phase = .parsingPayload) : StateInv s ↔
    s.cfg.legal = true
      ∧ (s.syncCnt = 0 ∧ 1 ≤ s.cursor ∧ s.cursor ≤ s.cfg.frameLen - 1
        ∧ s.fbuf.read 0 ≠ some s.cfg.syncMarker ∧ written s.fbuf s.cursor)
      ∧ s.fbuf.wf ∧ s.fbuf.inRange s.cfg.frameLen := by
  simp [StateInv, phaseInv, hp]

/-- The invariant does not see the outputs or the queue. -/
@[simp] theorem stateInv_emit {s : State} (o : Out) : StateInv (s.emit o) ↔ StateInv s := Iff.rfl
@[simp] theorem stateInv_answer {s : State} (r : Reply) : StateInv (s.answer r) ↔ StateInv s := Iff.rfl
@[simp] theorem stateInv_setInputs {s : State} (rs : List Request) : StateInv (s.setInputs rs) ↔ StateInv s := Iff.rfl

/-- A store at the first unwritten cell extends the written cells by one. -/
theorem written_write_succ {m : Memory} {n : Nat} (b : Byte) (h : written m n) : written (m.write n b) (n + 1) := by
  intro a ha
  rw [Memory.read_write]
  split
  next => rfl
  next hne => exact h a (by omega)

/-- Every byte row whose condition holds keeps R26. -/
theorem StateInv.of_rowHolds {s : State} {b : Byte} {row : ByteRow} (n : Millis) (hs : StateInv s)
    (h : rowHolds s.ctrl b row = true) : StateInv (rowNext b n s row) := by
  cases row with
  | markCount =>
    obtain ⟨hp, -, hcnt⟩ := rowHolds_markCount_iff.1 h
    obtain ⟨hl, ⟨-, hcur⟩, hmem⟩ := (stateInv_iff_of_syncing hp).1 hs
    exact (stateInv_iff_of_syncing (s := rowNext b n s .markCount) hp).2 ⟨hl, ⟨Nat.le_sub_one_of_lt hcnt, hcur⟩, hmem⟩
  | markLock =>
    obtain ⟨hp, -, -⟩ := rowHolds_markLock_iff.1 h
    obtain ⟨hl, ⟨-, hcur⟩, hmem⟩ := (stateInv_iff_of_syncing hp).1 hs
    exact (stateInv_iff_of_synced rfl).2 ⟨hl, ⟨rfl, hcur⟩, hmem⟩
  | other =>
    obtain ⟨hp, -⟩ := rowHolds_other_iff.1 h
    obtain ⟨hl, ⟨-, hcur⟩, hmem⟩ := (stateInv_iff_of_syncing hp).1 hs
    exact (stateInv_iff_of_syncing (s := rowNext b n s .other) hp).2 ⟨hl, ⟨Nat.zero_le _, hcur⟩, hmem⟩
  | markSkip => exact (stateInv_emit Out.silent).2 hs
  | start =>
    obtain ⟨hp, hb⟩ := rowHolds_start_iff.1 h
    obtain ⟨hl, ⟨hcnt, -⟩, hwf, hrange⟩ := (stateInv_iff_of_synced hp).1 hs
    obtain ⟨-, -, hlen, -⟩ := legal_iff.1 hl
    have hoff : 0 < s.cfg.frameLen := by omega
    have hfirst : (s.fbuf.write 0 b).read 0 ≠ some s.cfg.syncMarker := by
      rw [Memory.read_write_same]
      exact fun he => hb (Option.some.inj he)
    exact (stateInv_iff_of_parsingPayload rfl).2
      ⟨hl, ⟨hcnt, Nat.le_refl 1, show 1 ≤ s.cfg.frameLen - 1 by omega, hfirst, written_write_succ b nofun⟩,
        Memory.write_wf 0 b hwf, Memory.write_inRange b hoff hrange⟩
  | append =>
    obtain ⟨hp, hcur⟩ := rowHolds_append_iff.1 h
    obtain ⟨hl, ⟨hcnt, hpos, -, hfirst, hwritten⟩, hwf, hrange⟩ := (stateInv_iff_of_parsingPayload hp).1 hs
    have hfirst' : (s.fbuf.write s.cursor b).read 0 ≠ some s.cfg.syncMarker := by
      rwa [Memory.read_write_other _ _ (by omega)]
    exact (stateInv_iff_of_parsingPayload (s := rowNext b n s .append) hp).2
      ⟨hl, ⟨hcnt, Nat.le_add_left 1 s.cursor, Nat.le_sub_one_of_lt hcur, hfirst', written_write_succ b hwritten⟩,
        Memory.write_wf s.cursor b hwf, Memory.write_inRange b (Nat.lt_of_succ_lt hcur) hrange⟩
  | complete =>
    obtain ⟨hl, -, hwf, hrange⟩ := hs
    obtain ⟨-, -, hlen, -⟩ := legal_iff.1 hl
    have hoff : s.cfg.frameLen - 1 < s.cfg.frameLen := by omega
    exact (stateInv_iff_of_syncing rfl).2
      ⟨hl, ⟨Nat.zero_le _, rfl⟩, Memory.write_wf _ b hwf, Memory.write_inRange b hoff hrange⟩

theorem StateInv.of_runBytes {w : List InByte} {s t : State} {outs : List Out} (hs : StateInv s)
    (h : runBytes w s = .next (t, outs)) : StateInv t :=
  runBytes_preserves (P := StateInv) (fun _ _ n _ hrow hs => StateInv.of_rowHolds n hs hrow) h hs

/-- Every instruction keeps R26. -/
theorem StateInv.of_exec {i : Instr} {s t : State} (hs : StateInv s) (h : exec i s = .next t) : StateInv t := by
  cases exec_effect h with
  | row n holds => exact StateInv.of_rowHolds n hs holds
  | idle => exact (stateInv_emit Out.silent).2 hs
  | call r => exact (stateInv_answer r).2 hs
  | reset =>
    obtain ⟨hl, -, hmem⟩ := hs
    exact (stateInv_iff_of_syncing rfl).2 ⟨hl, ⟨Nat.zero_le _, rfl⟩, hmem⟩
  | feed r run | poll r run => exact (stateInv_answer r).2 (StateInv.of_runBytes hs run)

end Sys2Proof.Safety
end

section
/-!
The bytes of a frame in the buffer, in stream order (20_memory.md R44): each appended byte lands behind the ones before it.
-/

namespace Sys2Proof.Machine

/-- The cells from offset 0 on hold the bytes `l`. -/
def Memory.holdsBytes (m : Memory) (l : List Byte) : Prop := ∀ i < l.length, m.read i = l[i]?

theorem Memory.holdsBytes_nil (m : Memory) : m.holdsBytes [] := nofun

theorem Memory.holdsBytes.write {m : Memory} {l : List Byte} (b : Byte) (h : m.holdsBytes l) :
    (m.write l.length b).holdsBytes (l ++ [b]) := by
  intro i hi
  rw [List.length_append, List.length_singleton] at hi
  rw [Memory.read_write]
  split
  next heq => simp [heq]
  next hne =>
    have hlt : i < l.length := by omega
    rw [h i hlt, List.getElem?_append_left hlt]

/-- Frame bytes short of the last one are appended silently, whatever they are (R85). -/
theorem runBytes_append_bytes {w : List InByte} {s : State} {l : List Byte} (hl : s.cfg.legal = true)
    (hp : s.phase = .parsingPayload) (hcur : s.cursor = l.length) (hm : s.fbuf.holdsBytes l)
    (hw : l.length + w.length < s.cfg.frameLen) :
    ∃ t, runBytes w s = .next (t, List.replicate w.length Out.silent)
      ∧ t.phase = .parsingPayload ∧ t.cursor = l.length + w.length ∧ t.fbuf.holdsBytes (l ++ w.map (·.data)) := by
  induction w generalizing s l with
  | nil => exact ⟨s, rfl, hp, hcur, by simpa using hm⟩
  | cons x w ih =>
    rw [List.length_cons] at hw
    have hrow : rowHolds s.ctrl x.data .append = true :=
      rowHolds_append_iff.2 ⟨hp, show s.cursor + 1 < s.cfg.frameLen by omega⟩
    have hm' : (rowNext x.data x.nowMs s .append).fbuf.holdsBytes (l ++ [x.data]) := by
      simpa [rowNext, hcur] using hm.write x.data
    obtain ⟨t, ht, htp, htc, htm⟩ := ih (s := rowNext x.data x.nowMs s .append) (l := l ++ [x.data])
      hl hp (by simpa [rowNext] using hcur) hm' (by simpa [Nat.add_right_comm, Nat.add_assoc] using hw)
    refine ⟨t, ?_, htp, ?_, by simpa using htm⟩
    · rw [runBytes_cons_of_next (byteStep_of_holds hl hrow), ht]
      rfl
    · simpa [Nat.add_assoc, Nat.add_comm] using htc

end Sys2Proof.Machine
end

section
/-! The obligations of 10_state.md. -/

namespace Sys2Proof.Proofs

open Sys2Proof.Machine Sys2Proof.Safety

/-- Settles O46: a step is an instruction in the state with one request less, and every instruction keeps the invariant. -/
theorem stepKeepsInvariant : Obligations.StepKeepsInvariant := by
  intro s t hs h
  obtain ⟨i, rs, hi⟩ := step_next h
  exact StateInv.of_exec ((stateInv_setInputs rs).2 hs) hi

/-- Settles O37: START stores the first byte, and the others are appended behind it. -/
theorem frameBytesKeepStreamOrder : Obligations.FrameBytesKeepStreamOrder := by
  intro s x w hl hp hx hw
  have hrow : rowHolds s.ctrl x.data .start = true := rowHolds_start_iff.2 ⟨hp, hx⟩
  have hm : (rowNext x.data x.nowMs s .start).fbuf.holdsBytes [x.data] := s.fbuf.holdsBytes_nil.write x.data
  obtain ⟨t, ht, htp, htc, htm⟩ := runBytes_append_bytes (w := w) (s := rowNext x.data x.nowMs s .start)
    (l := [x.data]) hl rfl rfl hm (show 1 + w.length < s.cfg.frameLen by omega)
  refine ⟨t, ?_, htp, by rw [htc, Nat.add_comm]; rfl, fun i h => ?_⟩
  · rw [runBytes_cons_of_next (byteStep_of_holds hl hrow), ht]
    rfl
  · have hi : i < ((x :: w).map (·.data)).length := by simpa using h
    rw [htm i hi]
    exact (List.getElem?_eq_getElem hi).trans (congrArg some (List.getElem_map ..))

/-- Settles O49: by the effect of the instruction, row by row for a byte. -/
theorem phaseChangesOnlyByFourRules : Obligations.PhaseChangesOnlyByFourRules := by
  intro i s t hfeed hpoll h
  cases exec_effect h with
  | @row b row s n holds =>
    cases row with
    | markCount | other | markSkip | append => exact .inl rfl
    | markLock => exact .inr (.inl ⟨(rowHolds_markLock_iff.1 holds).1, rfl, b, rfl⟩)
    | start => exact .inr (.inr (.inl ⟨(rowHolds_start_iff.1 holds).1, rfl, b, rfl⟩))
    | complete => exact .inr (.inr (.inr (.inl ⟨(rowHolds_complete_iff.1 holds).1, rfl, b, n, rfl⟩)))
  | idle | call => exact .inl rfl
  | reset => exact .inr (.inr (.inr (.inr ⟨rfl, rfl⟩)))
  | feed => exact absurd rfl (hfeed _)
  | poll => exact absurd rfl (hpoll _ _)

/-- Settles O50: by the effect of the instruction; a row that is not named keeps the counter. -/
theorem onlyNamedRowsWriteCounters : Obligations.OnlyNamedRowsWriteCounters := by
  intro i s t hfeed hpoll h
  cases exec_effect h with
  | @row b row s n holds =>
    cases row with
    | markCount => exact ⟨fun _ => .inr (.inl ⟨b, rfl⟩), fun hc => absurd rfl hc⟩
    | markLock => exact ⟨fun _ => .inr (.inr (.inl ⟨b, rfl⟩)), fun hc => absurd rfl hc⟩
    | other => exact ⟨fun _ => .inr (.inr (.inr (.inl ⟨b, rfl⟩))), fun hc => absurd rfl hc⟩
    | markSkip => exact ⟨fun hc => absurd rfl hc, fun hc => absurd rfl hc⟩
    | start => exact ⟨fun hc => absurd rfl hc, fun _ => .inr (.inl ⟨b, rfl⟩)⟩
    | append => exact ⟨fun hc => absurd rfl hc, fun _ => .inr (.inr (.inl ⟨b, rfl⟩))⟩
    | complete =>
      exact ⟨fun _ => .inr (.inr (.inr (.inr ⟨b, n, rfl⟩))), fun _ => .inr (.inr (.inr ⟨b, n, rfl⟩))⟩
  | idle | call => exact ⟨fun hc => absurd rfl hc, fun hc => absurd rfl hc⟩
  | reset => exact ⟨fun _ => .inl rfl, fun _ => .inl rfl⟩
  | feed => exact absurd rfl (hfeed _)
  | poll => exact absurd rfl (hpoll _ _)

/-- Settles O52: what is no byte row, IDLE, RESET, FEED or POLL only answers. -/
theorem callsKeepParserState : Obligations.CallsKeepParserState := by
  intro i s t hrow hidle hreset hfeed hpoll h
  cases exec_effect h with
  | row => rw [rowOf_rowInstr] at hrow; cases hrow
  | idle => exact absurd rfl hidle
  | reset => exact absurd rfl hreset
  | call => exact ⟨rfl, rfl, rfl⟩
  | feed => exact absurd rfl (hfeed _)
  | poll => exact absurd rfl (hpoll _ _)

/-- Settles O53: no byte row writes either field, hence no run of BYTE steps. -/
theorem parametersNeverChange : Obligations.ParametersNeverChange := by
  intro i s t h
  cases exec_effect h with
  | row n holds => exact ⟨rowNext_cfg .., rowNext_inputs ..⟩
  | idle | reset | call => exact ⟨rfl, rfl⟩
  | feed r run | poll r run => exact (runBytes_cfg_inputs run :)

/-- Settles O56: an instruction is silent unless it is COMPLETE, whose output is the frame it makes and the verdict. -/
theorem outputsExactlyOnCompletion : Obligations.OutputsExactlyOnCompletion := by
  intro i s t h
  obtain ⟨hi, hout⟩ | ⟨b, n, rfl, hout⟩ := exec_out h
  · rw [hout]
    exact ⟨⟨nofun, fun ⟨b, n, he⟩ => absurd he (hi b n)⟩, Iff.rfl, nofun, fun b n he => absurd he (hi b n)⟩
  · rw [hout]
    refine ⟨⟨fun _ => ⟨b, n, rfl⟩, fun _ => rfl⟩, Iff.rfl, ?_, ?_⟩
    · rintro f ⟨⟩
      exact length_completedFrame b (legal_of_exec_eq_next h).1
    · rintro b' n' ⟨⟩
      exact ⟨completedFrame b s, rfl⟩

/-- Settles O17: by the four verdicts of the decoder. -/
theorem resultHasSampleExactlyOnSample : Obligations.ResultHasSampleExactlyOnSample := by
  intro c f n
  obtain h | h | h | h := decodeFrame_cases c f n <;> rw [h]
  case inr.inl => exact ⟨nofun, ⟨fun _ => rfl, fun _ => rfl⟩, rfl, by rintro x ⟨⟩; rfl⟩
  all_goals exact ⟨nofun, ⟨nofun, nofun⟩, rfl, nofun⟩

end Sys2Proof.Proofs
end

section
/-!
The store of a byte row as a function of its offset (20_memory.md R41, 40_synchronizer.md R84 to R86).
-/

namespace Sys2Proof.Safety

open Sys2Proof.Machine

/-- A row whose condition holds stores inside the buffer (R41). -/
theorem storeOffset_lt_of_rowHolds {s : State} {b : Byte} {row : ByteRow} {a : Nat} (hl : s.cfg.legal = true)
    (h : rowHolds s.ctrl b row = true) (ha : storeOffset s row = some a) : a < s.cfg.frameLen := by
  obtain ⟨-, -, hlen, -⟩ := legal_iff.1 hl
  cases row with
  | markCount | markLock | other | markSkip => cases ha
  | start => cases ha; omega
  | append => cases ha; exact Nat.lt_of_succ_lt (rowHolds_append_iff.1 h).2
  | complete => cases ha; omega

/-- A byte row changes the buffer by the one store at its offset, if it has one. -/
theorem rowNext_fbuf (b : Byte) (n : Millis) (s : State) (row : ByteRow) :
    (rowNext b n s row).fbuf = (storeOffset s row).elim s.fbuf (s.fbuf.write · b) := by
  cases row <;> rfl

theorem read_rowNext_of_storeOffset_eq {b : Byte} {s : State} {row : ByteRow} {a : Nat} (n : Millis)
    (ha : storeOffset s row = some a) : (rowNext b n s row).fbuf.read a = some b := by
  rw [rowNext_fbuf, ha]
  exact Memory.read_write_same s.fbuf a b

theorem read_rowNext_of_storeOffset_ne {b : Byte} {s : State} {row : ByteRow} {a : Nat} (n : Millis)
    (ha : storeOffset s row ≠ some a) : (rowNext b n s row).fbuf.read a = s.fbuf.read a := by
  rw [rowNext_fbuf]
  cases hk : storeOffset s row with
  | none => rfl
  | some k => exact Memory.read_write_other s.fbuf b fun hak => ha (hak ▸ hk)

end Sys2Proof.Safety
end

section
/-! The obligations of 20_memory.md. -/

namespace Sys2Proof.Proofs

open Sys2Proof.Machine Sys2Proof.Safety

/-- Settles O51: a completed byte row is in `rowNext`, whose one store is at the row's offset. -/
theorem byteRowsStoreOnlyTheirOffset : Obligations.ByteRowsStoreOnlyTheirOffset := by
  intro i row b s t hrow h
  have hl : s.cfg.legal = true := (legal_of_exec_eq_next h).1
  cases exec_effect h with
  | row n holds =>
    rw [rowOf_rowInstr] at hrow
    cases hrow
    exact ⟨fun a ha => ⟨storeOffset_lt_of_rowHolds hl holds ha, read_rowNext_of_storeOffset_eq n ha⟩,
      fun a ha => read_rowNext_of_storeOffset_ne n ha⟩
  | idle | reset | feed | poll => cases hrow
  | call r noRow => rw [noRow] at hrow; cases hrow

end Sys2Proof.Proofs
end

section
/-!
The decoder on what the encoder yields, the dispatch outside R61's table, and where each form stops
(30_encoding.md R60, R61, R65, R66, R67, R69).
-/

namespace Sys2Proof.Machine

/-- The dispatch selects no row in the reserved phase, and in that phase alone (R66, R88). -/
theorem selectRow_eq_error_iff {c : Ctrl} {b : Byte} {e : DecodeError} :
    selectRow c b = .error e ↔ c.phase = .reserved ∧ e = .reservedPhase := by
  unfold selectRow
  cases c.phase with
  | syncing | synced | parsingPayload => split_ifs <;> simp
  | reserved => simp [eq_comm]

theorem exists_selectRow_eq_ok {c : Ctrl} (b : Byte) (hp : c.phase ≠ .reserved) : ∃ row, selectRow c b = .ok row := by
  cases h : selectRow c b with
  | ok row => exact ⟨row, rfl⟩
  | error e => exact absurd (selectRow_eq_error_iff.1 h).1 hp

/-- Only an offered byte can fail to decode on the ports (R196), and only in the reserved phase. -/
theorem decodePort_eq_error {c : Ctrl} {p : PortIn} {e : DecodeError} (h : decodePort c p = .error e) :
    c.phase = .reserved ∧ e = .reservedPhase := by
  unfold decodePort at h
  split_ifs at h
  cases hs : selectRow c p.inData with
  | ok row => rw [hs] at h; cases h
  | error e' =>
    rw [hs] at h
    cases h
    exact selectRow_eq_error_iff.1 hs

/-- A byte offered on the ports decodes to the row whose condition holds of it. -/
theorem decode_bytePort_of_holds {c : Ctrl} {b : Byte} {row : ByteRow} (n : Millis) (hl : c.cfg.legal = true)
    (h : rowHolds c b row = true) : decode c (bytePort b n) = .ok (rowInstr b n row) := by
  rw [bytePort, decode_port _ hl]
  simp [decodePort, selectRow_eq_ok_iff.2 h, Except.map]

/-- A byte row is the instruction of its row, and encodes as its byte with the draw it reads. -/
theorem exists_eq_rowInstr {i : Instr} {row : ByteRow} {b : Byte} (h : rowOf i = some (row, b)) :
    ∃ n, i = rowInstr b n row ∧ encode i = bytePort b n := by
  cases i with
  | byteSyncingMarkCount | byteSyncingMarkLock | byteSyncingOther | byteSyncedMarkSkip | byteSyncedStart
  | byteParsingAppend => cases h; exact ⟨0, rfl, rfl⟩
  | byteParsingComplete _ n => cases h; exact ⟨n, rfl, rfl⟩
  | _ => cases h

theorem decode_encode_of_rowOf {c : Ctrl} {i : Instr} {row : ByteRow} {b : Byte} (hl : c.cfg.legal = true)
    (hi : rowOf i = some (row, b)) (h : rowHolds c b row = true) : decode c (encode i) = .ok i := by
  obtain ⟨n, rfl, he⟩ := exists_eq_rowInstr hi
  rw [he, decode_bytePort_of_holds n hl h]

theorem decode_encode_reset {c : Ctrl} (h : c.cfg.legal = true) : decode c (encode .reset) = .ok .reset := by
  simp [encode, decode_port _ h, decodePort]

theorem decode_frame_of_isFrame {c : Ctrl} {f : Frame} (op : FrameOp) (n : Millis) (hl : c.cfg.legal = true)
    (hf : isFrame c.cfg f = true) : decode c (.frame op f n) = .ok (decodeFrameOp c.cfg f n op) := by
  simp [decode, hl, hf]

theorem decode_temperature_pair {c : Ctrl} (high low : Byte) (hl : c.cfg.legal = true) :
    decode c (.temperature [low, high]) = .ok (.tempDecode high low) := by
  simp [decode, hl]

theorem decodeFrameOp_message_of_single {c : Config} {f : Frame} (n : Millis) (h : isSingle c (typeOf f) = true) :
    decodeFrameOp c f n .message = .msgSingle f n := by
  simp [decodeFrameOp, h]

/-- A bulk frame is no single reading, since the two message types differ (R7). -/
theorem decodeFrameOp_message_of_bulk {c : Config} {f : Frame} (n : Millis) (hl : c.legal = true)
    (h : isBulk c (typeOf f) = true) : decodeFrameOp c f n .message = .msgBulk f := by
  simp [decodeFrameOp, isSingle_of_isBulk hl h, h]

theorem decodeFrameOp_message_of_unknown {c : Config} {f : Frame} (n : Millis) (hs : isSingle c (typeOf f) = false)
    (hb : isBulk c (typeOf f) = false) : decodeFrameOp c f n .message = .msgUnknown f := by
  simp [decodeFrameOp, hs, hb]

theorem isSingle_eq_false_iff {c : Config} {t : Byte} :
    isSingle c t = false ↔ t ≠ c.msgSingle ∨ t = c.syncMarker := by
  simp [isSingle, or_iff_not_imp_left]

theorem isBulk_eq_false_iff {c : Config} {t : Byte} :
    isBulk c t = false ↔ t ≠ c.msgBulk ∨ t = c.syncMarker := by
  simp [isBulk, or_iff_not_imp_left]

theorem onFrame_of_not_frame {s : State} {f : Frame} (k : StepOutcome) (h : s.cfg.legal = true)
    (hp : s.phase ≠ .reserved) (hf : f.length ≠ s.cfg.frameLen) : onFrame s f k = .refused .notAFrame := by
  rw [onFrame, whenDefined_of_legal _ h hp, if_neg (by simpa [isFrame] using hf)]

/-- A message row is refused on a frame of which its condition does not hold. -/
theorem onFrame_onRow_of_not_holds {s : State} {f : Frame} {cond : Bool} (k : StepOutcome) (h : s.cfg.legal = true)
    (hp : s.phase ≠ .reserved) (hf : f.length = s.cfg.frameLen) (hc : cond = false) :
    onFrame s f (onRow s cond k) = .refused .rowNotSelected := by
  rw [onFrame_of_frame _ h hp hf, onRow_of_not_holds k h hp hc]

theorem exec_of_reserved {s : State} (i : Instr) (h : s.cfg.legal = true) (hp : s.phase = .reserved) :
    exec i s = .refused .reservedPhase := by
  obtain ⟨k, hk⟩ := exists_exec_eq_whenDefined i s
  rw [hk, whenDefined_of_reserved k h hp]

/-- On the ports RESET and IDLE are refused by `exec` in the reserved phase, and a byte by the decoder. -/
theorem step_port_of_reserved {s : State} {p : PortIn} {rest : List Request} (h : s.cfg.legal = true)
    (hp : s.phase = .reserved) (hs : s.inputs = .port p :: rest) : step s = .refused .reservedPhase := by
  cases hd : decode s.ctrl (.port p) with
  | ok i => exact (step_of_decode_ok hs hd).trans (exec_of_reserved i h hp)
  | error e =>
    obtain ⟨-, rfl⟩ := decodePort_eq_error ((decode_port (c := s.ctrl) p h).symm.trans hd)
    exact step_of_decode_error hs hd

theorem decode_of_decodeTableWord {nbits w : Nat} {i : Instr} (h : decodeTableWord nbits w = some i) :
    ∃ r, tableRequest nbits w = some r ∧ decode ctrlAtReset r = .ok i := by
  unfold decodeTableWord at h
  split at h
  next => cases h
  next r hr =>
    cases hd : decode ctrlAtReset r with
    | error e => rw [hd] at h; cases h
    | ok j => rw [hd] at h; cases h; exact ⟨r, hr, hd⟩

end Sys2Proof.Machine
end

section
/-! The obligations of 30_encoding.md. -/

namespace Sys2Proof.Proofs

open Sys2Proof.Machine Sys2Proof.Safety

/-- Settles O43: by the row's format. A byte row's condition selects it again, and a message row's type does. -/
theorem decodeOfEncodeIsInstruction : Obligations.DecodeOfEncodeIsInstruction := by
  intro c i hl hwf hsel
  cases i with
  | byteSyncingMarkCount | byteSyncingMarkLock | byteSyncingOther | byteSyncedMarkSkip | byteSyncedStart
  | byteParsingAppend | byteParsingComplete => exact decode_encode_of_rowOf hl rfl hsel
  | idle => exact decode_encode_idle hl
  | reset => exact decode_encode_reset hl
  | decode f n => exact decode_frame_of_isFrame .decode n hl hwf
  | checksum f => exact decode_frame_of_isFrame .checksum 0 hl hwf
  | msgSingle f n =>
    obtain ⟨hf, hs⟩ := Bool.and_eq_true_iff.1 hwf
    rw [encode, decode_frame_of_isFrame _ n hl hf, decodeFrameOp_message_of_single n hs]
  | msgBulk f =>
    obtain ⟨hf, hb⟩ := Bool.and_eq_true_iff.1 hwf
    rw [encode, decode_frame_of_isFrame _ 0 hl hf, decodeFrameOp_message_of_bulk 0 hl hb]
  | msgUnknown f =>
    obtain ⟨⟨hf, hs⟩, hb⟩ : (isFrame c.cfg f = true ∧ isSingle c.cfg (typeOf f) = false)
      ∧ isBulk c.cfg (typeOf f) = false := by simpa [wellFormed] using hwf
    rw [encode, decode_frame_of_isFrame _ 0 hl hf, decodeFrameOp_message_of_unknown 0 hs hb]
  | tempDecode high low => exact decode_temperature_pair high low hl
  | tempRender | feed | poll | tsEncode | tsDecode => simp [encode, decode, hl]

/-- Settles O39: the dispatch selects some row, and a row's condition holds exactly when it is the one selected; the
invariant bounds each counter from the other side. -/
theorem exactlyOneByteRow : Obligations.ExactlyOneByteRow := by
  refine ⟨fun c b hp => ?_, fun s b hs => ⟨fun h => ?_, fun h => ?_⟩⟩
  · obtain ⟨row, hrow⟩ := exists_selectRow_eq_ok b hp
    refine ⟨row, hrow, fun row' => ?_⟩
    rw [← selectRow_eq_ok_iff, hrow, Except.ok.injEq, eq_comm]
  · have hge : s.cfg.syncThreshold ≤ s.syncCnt + 1 := (rowHolds_markLock_iff.1 (selectRow_eq_ok_iff.1 h)).2.2
    have hlt := StateInv.syncCnt_lt hs
    omega
  · have hge : s.cfg.frameLen ≤ s.cursor + 1 := (rowHolds_complete_iff.1 (selectRow_eq_ok_iff.1 h)).2
    have hlt := StateInv.cursor_lt hs
    omega

/-- Settles O55: each form begins with the check that refuses it. -/
theorem formsThatAreRefused : Obligations.FormsThatAreRefused := by
  intro s hl hp
  refine ⟨fun i row b hi hrow => ?_, fun f n hf i hi => ?_, fun f n hf hk i hi => ?_, fun f n hf => ?_⟩
  · obtain ⟨n, rfl, -⟩ := exists_eq_rowInstr hi
    obtain ⟨k, hk⟩ := exists_exec_rowInstr_eq_onRow b n row s
    rw [hk, onRow_of_not_holds k hl hp hrow]
  · fin_cases hi <;> exact onFrame_of_not_frame _ hl hp hf
  · fin_cases hi <;> exact onFrame_onRow_of_not_holds _ hl hp hf (by simp [hk])
  · rw [← typeOf_eq_byteAt]
    refine ⟨fun ht => onFrame_onRow_of_not_holds _ hl hp hf ?_, fun ht => onFrame_onRow_of_not_holds _ hl hp hf ?_,
      fun ht hm => onFrame_onRow_of_not_holds _ hl hp hf ?_⟩
    · simp [isSingle_eq_false_iff.2 ht]
    · simp [isBulk_eq_false_iff.2 ht]
    · obtain ht | ht := ht
      · simp [isSingle_iff.2 ⟨ht, hm⟩]
      · simp [isBulk_iff.2 ⟨ht, hm⟩]

/-- Settles O60: every instruction begins with the check of the phase, and a step that goes on runs an instruction. -/
theorem reservedPhaseIsRefused : Obligations.ReservedPhaseIsRefused := by
  intro s hl hp
  refine ⟨fun i => exec_of_reserved i hl hp, fun p rest hs => step_port_of_reserved hl hp hs,
    fun hs => (step_of_nil hs).trans (exec_of_reserved .idle hl hp), fun t ht => ?_⟩
  obtain ⟨i, rs, hi⟩ := step_next ht
  exact (legal_of_exec_eq_next hi).2 hp

/-- Settles O42: the state with the word offered next is in the control state in which the word was read. -/
theorem tableWordRunsNext : Obligations.TableWordRunsNext := by
  intro s nbits w i h
  obtain ⟨r, hr, hd⟩ := decode_of_decodeTableWord h
  rw [State.withFetchWord, hr]
  exact step_of_decode_ok rfl hd

/-- Settles O45: the conditions of the three byte rows hold of their words, and two bytes are a temperature register. -/
theorem specWordsDecode : Obligations.SpecWordsDecode :=
  ⟨decode_bytePort_of_holds (row := .markLock) 0 (by decide) (by decide),
    decode_bytePort_of_holds (row := .start) 0 (by decide) (by decide),
    decode_bytePort_of_holds (row := .complete) 9 (by decide) (by decide),
    decode_temperature_pair _ _ (by decide)⟩

end Sys2Proof.Proofs
end

section
/-!
Runs of BYTE steps (40_synchronizer.md R88, R89): runs in a row are one run, and a silent run, which puts nothing out.
-/

namespace Sys2Proof.Machine

theorem runBytes_append_of_next {v w : List InByte} {s t u : State} {outs outs' : List Out}
    (hv : runBytes v s = .next (t, outs)) (hw : runBytes w t = .next (u, outs')) :
    runBytes (v ++ w) s = .next (u, outs ++ outs') := by
  induction v generalizing s outs with
  | nil => cases hv; exact hw
  | cons b v ih =>
    obtain ⟨s₁, rest, hb, hrest, rfl⟩ := runBytes_cons_next hv
    rw [List.cons_append, runBytes_cons_of_next hb, ih hrest]
    rfl

theorem runBytes_singleton_of_holds {b : InByte} {row : ByteRow} {s : State} (hl : s.cfg.legal = true)
    (h : rowHolds s.ctrl b.data row = true) :
    runBytes [b] s = .next (rowNext b.data b.nowMs s row, [(rowNext b.data b.nowMs s row).out]) :=
  runBytes_cons_of_next (byteStep_of_holds hl h)

/-- The bytes `w` take `s` to `t`, and no step puts anything out. -/
def SilentRun (w : List InByte) (s t : State) : Prop :=
  runBytes w s = .next (t, List.replicate w.length Out.silent)

theorem SilentRun.nil (s : State) : SilentRun [] s s := rfl

theorem SilentRun.trans {v w : List InByte} {s t u : State} (hv : SilentRun v s t) (hw : SilentRun w t u) :
    SilentRun (v ++ w) s u := by
  rw [SilentRun, runBytes_append_of_next hv hw, List.length_append, List.replicate_add]

theorem SilentRun.cfg_eq {w : List InByte} {s t : State} (h : SilentRun w s t) : t.cfg = s.cfg :=
  (runBytes_cfg_inputs h).1

/-- Every row but COMPLETE is silent (R30). -/
theorem SilentRun.of_holds {b : InByte} {row : ByteRow} {s : State} (hl : s.cfg.legal = true)
    (h : rowHolds s.ctrl b.data row = true) (hrow : row ≠ .complete) :
    SilentRun [b] s (rowNext b.data b.nowMs s row) := by
  have hout : (rowNext b.data b.nowMs s row).out = Out.silent := by
    cases row with
    | complete => exact absurd rfl hrow
    | markCount | markLock | other | markSkip | start | append => rfl
  rw [SilentRun, runBytes_singleton_of_holds hl h, hout]
  rfl

theorem SilentRun.cons {b : InByte} {w : List InByte} {row : ByteRow} {s t : State} (hl : s.cfg.legal = true)
    (h : rowHolds s.ctrl b.data row = true) (hrow : row ≠ .complete)
    (hw : SilentRun w (rowNext b.data b.nowMs s row) t) : SilentRun (b :: w) s t :=
  (SilentRun.of_holds hl h hrow).trans hw

end Sys2Proof.Machine
end

section
/-!
Runs of markers (R80, R81, R83): from SYNCING a run that reaches the threshold locks, and in SYNCED every marker is
skipped.
-/

namespace Sys2Proof.Safety

open Sys2Proof.Machine

theorem exists_silentRun_markers_of_synced {w : List InByte} {s : State} (hl : s.cfg.legal = true)
    (hp : s.phase = .synced) (hw : ∀ x ∈ w, x.data = s.cfg.syncMarker) :
    ∃ t, SilentRun w s t ∧ parserState t = parserState s := by
  induction w generalizing s with
  | nil => exact ⟨s, .nil s, rfl⟩
  | cons x w ih =>
    obtain ⟨hx, hw⟩ := List.forall_mem_cons.1 hw
    obtain ⟨t, ht, hts⟩ := ih (s := rowNext x.data x.nowMs s .markSkip) hl hp hw
    exact ⟨t, .cons hl (rowHolds_markSkip_iff.2 ⟨hp, hx⟩) nofun ht, hts⟩

/-- The run counts from the `SYNC_CNT` it finds, and what follows the locking marker is skipped. -/
theorem exists_silentRun_markers_of_syncing {w : List InByte} {s : State} (hl : s.cfg.legal = true)
    (hp : s.phase = .syncing) (hw : ∀ x ∈ w, x.data = s.cfg.syncMarker) (hne : 0 < w.length)
    (hlen : s.cfg.syncThreshold ≤ s.syncCnt + w.length) :
    ∃ t, SilentRun w s t ∧ parserState t = (.synced, 0, s.cursor, s.fbuf) := by
  induction w generalizing s with
  | nil => cases hne
  | cons x w ih =>
    obtain ⟨hx, hw⟩ := List.forall_mem_cons.1 hw
    rw [List.length_cons] at hlen
    rcases Nat.lt_or_ge (s.syncCnt + 1) s.cfg.syncThreshold with hcnt | hcnt
    · obtain ⟨t, ht, hts⟩ := ih (s := rowNext x.data x.nowMs s .markCount) hl hp hw (by omega)
        (show s.cfg.syncThreshold ≤ s.syncCnt + 1 + w.length by omega)
      exact ⟨t, .cons hl (rowHolds_markCount_iff.2 ⟨hp, hx, hcnt⟩) nofun ht, hts⟩
    · obtain ⟨t, ht, hts⟩ :=
        exists_silentRun_markers_of_synced (s := rowNext x.data x.nowMs s .markLock) hl rfl hw
      exact ⟨t, .cons hl (rowHolds_markLock_iff.2 ⟨hp, hx, hcnt⟩) nofun ht, hts⟩

/-- A run of `SYNC_THRESHOLD` markers or more ends in SYNCED, from SYNCING at any count and from SYNCED. -/
theorem exists_silentRun_to_synced {w : List InByte} {s : State} (hl : s.cfg.legal = true)
    (hp : s.phase = .syncing ∨ s.phase = .synced) (hw : ∀ x ∈ w, x.data = s.cfg.syncMarker)
    (hlen : s.cfg.syncThreshold ≤ w.length) : ∃ t, SilentRun w s t ∧ t.phase = .synced := by
  have hthreshold : 1 ≤ s.cfg.syncThreshold := (legal_iff.1 hl).1
  rcases hp with hp | hp
  · obtain ⟨t, ht, hts⟩ := exists_silentRun_markers_of_syncing hl hp hw (by omega) (by omega)
    exact ⟨t, ht, congrArg Prod.fst hts⟩
  · obtain ⟨t, ht, hts⟩ := exists_silentRun_markers_of_synced hl hp hw
    exact ⟨t, ht, (congrArg Prod.fst hts).trans hp⟩

end Sys2Proof.Safety
end

section
/-!
Streams without a run of `SYNC_THRESHOLD` markers (R92): `SYNC_CNT` counts the markers that end the stream so far.
-/

namespace Sys2Proof.Safety

open Sys2Proof.Machine

/-- The markers `SYNC_CNT` counts end what has been read, so a stream without a full run keeps the count low. -/
theorem syncCnt_lt_of_isSuffix {n k : Nat} {m : Byte} {l : List Byte} (hs : List.replicate k m <:+ l)
    (hl : ¬ List.replicate n m <:+: l) : k < n := by
  by_contra hk
  have hpre : List.replicate n m <+: List.replicate k m := by
    rw [← Nat.add_sub_of_le (Nat.le_of_not_lt hk), List.replicate_add]
    exact List.prefix_append ..
  exact hl (hpre.isInfix.trans hs.isInfix)

theorem exists_silentRun_of_no_markerRun {w : List InByte} {s : State} (hl : s.cfg.legal = true)
    (hp : s.phase = .syncing)
    (hrun : ¬ List.replicate s.cfg.syncThreshold s.cfg.syncMarker
      <:+: List.replicate s.syncCnt s.cfg.syncMarker ++ dataOf w) :
    ∃ t, SilentRun w s t ∧ (t.phase = .syncing ∧ t.cursor = s.cursor ∧ t.fbuf = s.fbuf)
      ∧ List.replicate t.syncCnt s.cfg.syncMarker <:+ List.replicate s.syncCnt s.cfg.syncMarker ++ dataOf w
      ∧ ∀ v x, w = v ++ [x] → x.data ≠ s.cfg.syncMarker → t.syncCnt = 0 := by
  induction w using List.reverseRecOn with
  | nil => exact ⟨s, .nil s, ⟨hp, rfl, rfl⟩, by simp [dataOf], by simp⟩
  | append_singleton v x ih =>
    have hdata : dataOf (v ++ [x]) = dataOf v ++ [x.data] := List.map_append
    rw [hdata, ← List.append_assoc] at hrun ⊢
    obtain ⟨t, ht, ⟨htp, htc, htm⟩, hsuffix, -⟩ := ih fun h => hrun (h.trans (List.prefix_append ..).isInfix)
    have hlt : t.cfg.legal = true := ht.cfg_eq ▸ hl
    by_cases hx : x.data = s.cfg.syncMarker
    · have hsuffix' : List.replicate (t.syncCnt + 1) s.cfg.syncMarker
          <:+ List.replicate s.syncCnt s.cfg.syncMarker ++ dataOf v ++ [x.data] := by
        rw [List.replicate_succ', hx]
        exact (List.suffix_append_inj_of_length_eq rfl).2 ⟨hsuffix, rfl⟩
      have hcnt : t.syncCnt + 1 < t.cfg.syncThreshold := ht.cfg_eq ▸ syncCnt_lt_of_isSuffix hsuffix' hrun
      have hrow : rowHolds t.ctrl x.data .markCount = true :=
        rowHolds_markCount_iff.2 ⟨htp, hx.trans (congrArg _ ht.cfg_eq.symm), hcnt⟩
      refine ⟨_, ht.trans (.of_holds hlt hrow nofun), ⟨htp, htc, htm⟩, hsuffix', fun v' x' he hx' => ?_⟩
      cases (List.append_inj' he rfl).2
      exact absurd hx hx'
    · have hrow : rowHolds t.ctrl x.data .other = true :=
        rowHolds_other_iff.2 ⟨htp, fun he => hx (he.trans (congrArg _ ht.cfg_eq))⟩
      exact ⟨_, ht.trans (.of_holds hlt hrow nofun), ⟨htp, htc, htm⟩, List.nil_suffix, fun _ _ _ _ => rfl⟩

end Sys2Proof.Safety
end

section
/-!
The frame in progress (R85, R86): the cells below `CURSOR` and the bytes that follow them are the frame.
-/

namespace Sys2Proof.Safety

open Sys2Proof.Machine

/-- A store at offset `n` extends the bytes read below it by one. -/
theorem memRead_succ_of_fbuf_eq_write {s t : State} {n : Nat} {b : Byte} (h : t.fbuf = s.fbuf.write n b) :
    memRead t (n + 1) = memRead s n ++ [b] := by
  have hcell (a : Nat) : readCell t a = if a = n then b else readCell s a := by
    rw [← readCell_setFbuf_write, ← h]
    rfl
  simp only [memRead, List.range_succ, List.map_append, List.map_singleton, hcell, if_true]
  congr 1
  exact List.map_congr_left fun a ha => (hcell a).trans (if_neg (Nat.ne_of_lt (List.mem_range.1 ha)))

theorem exists_silentRun_of_parsingPayload {w : List InByte} {s : State} (hl : s.cfg.legal = true)
    (hp : s.phase = .parsingPayload) (hlen : s.cursor + w.length < s.cfg.frameLen) :
    ∃ t, SilentRun w s t ∧ t.phase = .parsingPayload ∧ t.cursor = s.cursor + w.length
      ∧ memRead t t.cursor = memRead s s.cursor ++ dataOf w := by
  induction w generalizing s with
  | nil => exact ⟨s, .nil s, hp, rfl, (List.append_nil _).symm⟩
  | cons x w ih =>
    rw [List.length_cons] at hlen
    have hrow : rowHolds s.ctrl x.data .append = true :=
      rowHolds_append_iff.2 ⟨hp, show s.cursor + 1 < s.cfg.frameLen by omega⟩
    have hmem : memRead (rowNext x.data x.nowMs s .append) (s.cursor + 1) = memRead s s.cursor ++ [x.data] :=
      memRead_succ_of_fbuf_eq_write rfl
    obtain ⟨t, ht, htp, htc, htm⟩ := ih (s := rowNext x.data x.nowMs s .append) hl hp
      (show s.cursor + 1 + w.length < s.cfg.frameLen by omega)
    refine ⟨t, .cons hl hrow nofun ht, htp, htc.trans (Nat.add_right_comm ..), ?_⟩
    calc memRead t t.cursor
        = memRead (rowNext x.data x.nowMs s .append) (s.cursor + 1) ++ dataOf w := htm
      _ = memRead s s.cursor ++ dataOf (x :: w) := by rw [hmem, List.append_assoc]; rfl

/-- `FRAME_LEN - CURSOR` bytes end the frame in progress, and the last of them puts it out with its verdict. -/
theorem exists_runBytes_to_completion {w : List InByte} {y : InByte} {s : State} {f : Frame}
    (hl : s.cfg.legal = true) (hp : s.phase = .parsingPayload) (hlen : s.cursor + w.length + 1 = s.cfg.frameLen)
    (hf : memRead s s.cursor ++ dataOf (w ++ [y]) = f) :
    ∃ t, runBytes (w ++ [y]) s = .next (t, List.replicate w.length Out.silent
          ++ [⟨some f, some (decodeFrame s.cfg f y.nowMs)⟩])
      ∧ t.phase = .syncing ∧ t.syncCnt = 0 ∧ t.cursor = 0 := by
  obtain ⟨t, ht, htp, htc, htm⟩ := exists_silentRun_of_parsingPayload (w := w) hl hp (by omega)
  have hcfg : t.cfg = s.cfg := ht.cfg_eq
  have hrow : rowHolds t.ctrl y.data .complete = true :=
    rowHolds_complete_iff.2 ⟨htp, show t.cfg.frameLen ≤ t.cursor + 1 by rw [hcfg]; omega⟩
  have hframe : completedFrame y.data t = f := by
    rw [completedFrame, show t.cfg.frameLen - 1 = t.cursor by rw [hcfg]; omega, htm, List.append_assoc, ← hf]
    simp [dataOf]
  have hout : (rowNext y.data y.nowMs t .complete).out = ⟨some f, some (decodeFrame s.cfg f y.nowMs)⟩ := by
    rw [← hframe, ← hcfg]
    rfl
  refine ⟨rowNext y.data y.nowMs t .complete, ?_, rfl, rfl, rfl⟩
  rw [runBytes_append_of_next ht (runBytes_singleton_of_holds (hcfg ▸ hl) hrow), hout]

end Sys2Proof.Safety
end

section
/-!
One input event on the ports (R196) from a state that meets the invariant: it completes (R93).
-/

namespace Sys2Proof.Safety

open Sys2Proof.Machine

theorem exists_decodePort_eq_ok {c : Ctrl} (p : PortIn) (hp : c.phase ≠ .reserved) :
    ∃ i, decodePort c p = .ok i := by
  cases h : decodePort c p with
  | ok i => exact ⟨i, rfl⟩
  | error e => exact absurd (decodePort_eq_error h).1 hp

/-- RESET, IDLE and the row whose condition holds all complete. -/
theorem exists_step_port_eq_next {s : State} {p : PortIn} {rest : List Request} (hl : s.cfg.legal = true)
    (hp : s.phase ≠ .reserved) (hs : s.inputs = .port p :: rest) : ∃ t, step s = .next t := by
  obtain ⟨i, hi⟩ := exists_decodePort_eq_ok (c := s.ctrl) p hp
  rw [step_of_decode_ok hs ((decode_port p hl).trans hi)]
  obtain ⟨-, rfl⟩ | ⟨-, -, rfl⟩ | ⟨row, -, -, hrow, rfl⟩ := decodePort_eq_ok hi
  · exact ⟨_, whenDefined_of_legal (s := s.setInputs rest) _ hl hp⟩
  · exact ⟨_, whenDefined_of_legal (s := s.setInputs rest) _ hl hp⟩
  · exact ⟨_, exec_rowInstr_of_holds (s := s.setInputs rest) _ hl hrow⟩

theorem runEvents_cons_of_next {p : PortIn} {ps : List PortIn} {s s₁ t : State} {rs : List Result}
    (h : step (s.setInputs [.port p]) = .next s₁) (hrun : runEvents ps s₁ = .next (t, rs)) :
    runEvents (p :: ps) s = .next (t, s₁.out.result.toList ++ rs) := by
  simp only [runEvents, h, hrun]

end Sys2Proof.Safety
end

section
/-! The obligations of 40_synchronizer.md. -/

namespace Sys2Proof.Proofs

open Sys2Proof.Machine Sys2Proof.Safety

/-- Settles O2: one step of the row, and by induction on the run of markers, which counts up to the locking one. -/
theorem markLockEntersSynced : Obligations.MarkLockEntersSynced := by
  refine ⟨fun s b hl hp hb hcnt => ?_, fun s w hl hp hcnt hlen hw => ?_⟩
  · exact exec_rowInstr_of_holds (row := .markLock) 0 hl (rowHolds_markLock_iff.2 ⟨hp, hb, hcnt.ge⟩)
  · have hthreshold : 1 ≤ s.cfg.syncThreshold := (legal_iff.1 hl).1
    exact exists_silentRun_markers_of_syncing hl hp hw (by omega) (by omega)

/-- Settles O4: one step of the row, and by induction on the run of markers. -/
theorem markSkipKeepsState : Obligations.MarkSkipKeepsState :=
  ⟨fun _ _ hl hp hb => exec_rowInstr_of_holds (row := .markSkip) 0 hl (rowHolds_markSkip_iff.2 ⟨hp, hb⟩),
    fun _ _ hl hp hw => exists_silentRun_markers_of_synced hl hp hw⟩

/-- Settles O7: the row's next state; its store at `FRAME_LEN-1` makes the buffer the frame that is put out. -/
theorem completeEmitsFrame : Obligations.CompleteEmitsFrame := by
  intro s b n hl hp hlen
  have hrow : rowHolds s.ctrl b .complete = true := rowHolds_complete_iff.2 ⟨hp, hlen.ge⟩
  have hmem : memRead (rowNext b n s .complete) (s.cfg.frameLen - 1 + 1) = completedFrame b s :=
    memRead_succ_of_fbuf_eq_write rfl
  rw [Nat.sub_add_cancel (by omega)] at hmem
  exact ⟨completedFrame b s, rowNext b n s .complete, exec_rowInstr_of_holds n hl hrow, rfl,
    length_completedFrame b hl, rfl, hmem, Memory.read_write_same .., fun a ha => Memory.read_write_other _ b ha⟩

/-- Settles O33: the markers lead to SYNCED, START stores `x` as byte 0, and the rest ends the frame it begins. -/
theorem markerRunFramesWhatFollows : Obligations.MarkerRunFramesWhatFollows := by
  intro s pre body x y hl hp hpre hmarkers hx hbody
  obtain ⟨-, -, hlen, -⟩ := legal_iff.1 hl
  obtain ⟨t, ht, htp⟩ := exists_silentRun_to_synced hl hp hmarkers hpre
  have hcfg : t.cfg = s.cfg := ht.cfg_eq
  have hlt : t.cfg.legal = true := hcfg ▸ hl
  have hrow : rowHolds t.ctrl x.data .start = true :=
    rowHolds_start_iff.2 ⟨htp, fun he => hx (he.trans (congrArg _ hcfg))⟩
  have hfirst : memRead (rowNext x.data x.nowMs t .start) 1 = [x.data] := memRead_succ_of_fbuf_eq_write rfl
  obtain ⟨u, hu, hregs⟩ := exists_runBytes_to_completion (s := rowNext x.data x.nowMs t .start) (w := body) (y := y)
    (f := x.data :: (dataOf body ++ [y.data])) hlt rfl
    (show 1 + body.length + 1 = t.cfg.frameLen by rw [hcfg]; omega)
    (by rw [show (rowNext x.data x.nowMs t .start).cursor = 1 from rfl, hfirst]; simp [dataOf])
  refine ⟨u, ?_, hregs⟩
  rw [List.append_cons, runBytes_append_of_next (ht.trans (.of_holds hlt hrow nofun)) hu, rowNext_cfg, hcfg,
    ← List.append_assoc, ← List.replicate_add, List.length_append, List.length_singleton]

/-- Settles O34: every byte short of the last is appended, and the last one completes the frame. -/
theorem frameInProgressEnds : Obligations.FrameInProgressEnds := by
  intro s w y hl hp hcur hlen
  exact ⟨by omega, exists_runBytes_to_completion hl hp hlen rfl⟩

/-- Settles O35: by induction on the stream, with `SYNC_CNT` the number of markers that end it. -/
theorem noMarkerRunNoFrame : Obligations.NoMarkerRunNoFrame := by
  intro s w hl hp hrun
  obtain ⟨t, ht, ⟨htp, htc, htm⟩, hsuffix, hlast⟩ := exists_silentRun_of_no_markerRun hl hp hrun
  exact ⟨t, ht, htp, htc, htm, syncCnt_lt_of_isSuffix hsuffix hrun, hlast⟩

/-- Settles O36: a completing step leaves SYNCING with count 0, from where O35's induction starts. -/
theorem framesAreNotChained : Obligations.FramesAreNotChained := by
  intro s t b n w h hrun
  obtain ⟨hl, -, rfl⟩ := exec_rowInstr_eq_next_iff (row := .complete).1 h
  obtain ⟨t', ht', ⟨htp, -⟩, -⟩ := exists_silentRun_of_no_markerRun (s := rowNext b n s .complete) hl rfl hrun
  exact ⟨rfl, t', ht', htp⟩

/-- Settles O48: by induction on the events; each completes and keeps the invariant. -/
theorem runsOfEventsNeverStop : Obligations.RunsOfEventsNeverStop := by
  intro s ps hs
  induction ps generalizing s with
  | nil => exact ⟨s, [], rfl, hs⟩
  | cons p ps ih =>
    have hs' : StateInv (s.setInputs [.port p]) := (stateInv_setInputs _).2 hs
    obtain ⟨hl, ⟨-, -, -, hp⟩, -⟩ := hs
    obtain ⟨s₁, h₁⟩ := exists_step_port_eq_next (s := s.setInputs [.port p]) hl hp rfl
    obtain ⟨t, rs, hrun, ht⟩ := ih s₁ (stepKeepsInvariant _ _ hs' h₁)
    exact ⟨t, _, runEvents_cons_of_next h₁ hrun, ht⟩

/-- Settles O1: one step of the row; at a threshold of 1 its condition fails at every count. -/
theorem markCountAddsOne : Obligations.MarkCountAddsOne := by
  refine ⟨fun s b hl hp hb hcnt => ⟨?_, by omega, by omega⟩, fun c b hthreshold h => ?_⟩
  · exact exec_rowInstr_of_holds (row := .markCount) 0 hl (rowHolds_markCount_iff.2 ⟨hp, hb, hcnt⟩)
  · obtain ⟨-, -, hcnt⟩ := rowHolds_markCount_iff.1 (selectRow_eq_ok_iff.1 h)
    omega

/-- Settles O3: one step of the row, after which the next marker is counted from 0. -/
theorem otherClearsCount : Obligations.OtherClearsCount := by
  refine ⟨fun s b hl hp hb => ?_, fun s x y hl hp hthreshold hx hy => ?_⟩
  · exact exec_rowInstr_of_holds (row := .other) 0 hl (rowHolds_other_iff.2 ⟨hp, hb⟩)
  · have hother : rowHolds s.ctrl x.data .other = true := rowHolds_other_iff.2 ⟨hp, hx⟩
    have hcount : rowHolds (rowNext x.data x.nowMs s .other).ctrl y.data .markCount = true :=
      rowHolds_markCount_iff.2 ⟨hp, hy, hthreshold⟩
    exact SilentRun.cons hl hother nofun (.of_holds (s := rowNext x.data x.nowMs s .other) hl hcount nofun)

/-- Settles O5: the row's next state, whose store is at offset 0. -/
theorem startStoresByteZero : Obligations.StartStoresByteZero := by
  intro s b hl hp hb
  obtain ⟨-, -, hlen, -⟩ := legal_iff.1 hl
  exact ⟨s.fbuf.write 0 b, exec_rowInstr_of_holds (row := .start) 0 hl (rowHolds_start_iff.2 ⟨hp, hb⟩),
    Memory.read_write_same .., fun a ha => Memory.read_write_other _ b ha, by omega⟩

/-- Settles O6: the row's next state, whose store is at `CURSOR`. -/
theorem appendStoresAtCursor : Obligations.AppendStoresAtCursor := by
  intro s b hl hp hcur hlen
  exact ⟨s.fbuf.write s.cursor b, exec_rowInstr_of_holds (row := .append) 0 hl (rowHolds_append_iff.2 ⟨hp, hlen⟩),
    Memory.read_write_same .., fun a ha => Memory.read_write_other _ b ha, by omega, by omega⟩

/-- Settles O8: IDLE goes on in every state the spec gives a meaning. -/
theorem idleKeepsState : Obligations.IdleKeepsState := fun _ hl hp => whenDefined_of_legal _ hl hp

end Sys2Proof.Proofs
end

section
/-!
The checksum as the XOR of all the bytes of a frame (41_frame_decoder.md R101), and what a changed byte does to it
(R106).
-/

namespace Sys2Proof.Machine

@[simp] theorem xorBytes_nil : xorBytes [] = 0 := rfl

@[simp] theorem xorBytes_cons (b : Byte) (l : List Byte) : xorBytes (b :: l) = b ^^^ xorBytes l := by
  simp only [xorBytes, List.foldl_cons, BitVec.xor_comm 0 b]
  exact List.foldl_assoc

@[simp] theorem xorBytes_append_singleton (l : List Byte) (b : Byte) : xorBytes (l ++ [b]) = xorBytes l ^^^ b :=
  List.foldl_append

theorem xorBytes_eq_of_perm {l l' : List Byte} (h : l.Perm l') : xorBytes l = xorBytes l' := h.foldl_eq 0

theorem xorBytes_replicate_zero (n : Nat) : xorBytes (List.replicate n 0) = 0 := by
  induction n with
  | zero => rfl
  | succ n ih => simpa [List.replicate_succ] using ih

/-- Two byte sequences combined position by position: their XORs combine. -/
theorem xorBytes_map_xor (is : List Nat) (g h : Nat → Byte) :
    xorBytes (is.map fun i => g i ^^^ h i) = xorBytes (is.map g) ^^^ xorBytes (is.map h) := by
  induction is with
  | nil => simp
  | cons i is ih => simp only [List.map_cons, xorBytes_cons, ih]; ac_rfl

/-- Bit `j` of the XOR says whether an odd number of the bytes have bit `j` set. -/
theorem getLsbD_xorBytes_iff (l : List Byte) (j : Nat) :
    (xorBytes l).getLsbD j = true ↔ l.countP (·.getLsbD j) % 2 = 1 := by
  induction l with
  | nil => simp
  | cons b l ih =>
    rw [xorBytes_cons, BitVec.getLsbD_xor, List.countP_cons]
    cases hb : b.getLsbD j with
    | false => simpa using ih
    | true =>
      rw [Bool.true_xor, Bool.not_eq_true', ← Bool.not_eq_true, ih]
      simp only [if_true]
      omega

theorem byte_ne_zero_iff (b : Byte) : b ≠ 0 ↔ ∃ j < 8, b.getLsbD j = true := by
  constructor
  · intro h
    exact ⟨b.ctz.toNat, BitVec.lt_def.1 (BitVec.ctz_lt_iff_ne_zero.2 h), BitVec.getLsbD_true_ctz_of_ne_zero h⟩
  · rintro ⟨j, -, hj⟩ rfl
    simp at hj

theorem map_byteAt_range (f : Frame) : (List.range f.length).map (byteAt f) = f := by
  refine List.ext_getElem (by simp) fun i _ hi => ?_
  simp [byteAt, hi]

/-- A mask laid over one byte is laid over the XOR. -/
theorem xorBytes_set_xor {f : Frame} {i : Nat} (m : Byte) (hi : i < f.length) :
    xorBytes (f.set i (byteAt f i ^^^ m)) = xorBytes f ^^^ m := by
  have hperm : (byteAt f i :: f.set i (byteAt f i ^^^ m)).Perm ((byteAt f i ^^^ m) :: f) := by
    simpa [byteAt, hi] using List.getD_set_perm_cons f i (byteAt f i ^^^ m)
  have hxor := xorBytes_eq_of_perm hperm
  rw [xorBytes_cons, xorBytes_cons, BitVec.xor_assoc, BitVec.xor_right_inj] at hxor
  rw [hxor, BitVec.xor_comm]

theorem byteAt_set_ne {f : Frame} {i k : Nat} (b : Byte) (h : i ≠ k) : byteAt (f.set i b) k = byteAt f k := by
  simp [byteAt, h]

/-- R101 on a frame given as its body and its checksum byte. -/
theorem checksumOk_append_singleton {c : Config} {body : List Byte} (last : Byte)
    (h : body.length + 1 = c.frameLen) : checksumOk c (body ++ [last]) = (xorBytes body == last) := by
  simp [checksumOk, chkOf, byteAt, ← h]

/-- The equivalent test of R101. -/
theorem checksumOk_iff_xorBytes_eq_zero {c : Config} {f : Frame} (hl : c.legal = true)
    (hf : f.length = c.frameLen) : checksumOk c f = true ↔ xorBytes f = 0 := by
  obtain ⟨-, -, hlen, -⟩ := legal_iff.1 hl
  obtain rfl | ⟨body, last, rfl⟩ := f.eq_nil_or_concat'
  · rw [List.length_nil] at hf; omega
  · rw [checksumOk_append_singleton last (by simpa using hf), xorBytes_append_singleton]
    exact beq_iff_eq.trans BitVec.xor_eq_zero_iff.symm

theorem checksumOk_eq_false_iff_xorBytes_ne_zero {c : Config} {f : Frame} (hl : c.legal = true)
    (hf : f.length = c.frameLen) : checksumOk c f = false ↔ xorBytes f ≠ 0 := by
  rw [← Bool.not_eq_true, checksumOk_iff_xorBytes_eq_zero hl hf]

/-- Against a frame whose XOR is 0, the bytewise differences have the XOR of the other frame. -/
theorem xorBytes_differences {f f' : Frame} (h : xorBytes f = 0) (hlen : f.length = f'.length) :
    xorBytes ((List.range f'.length).map fun i => byteAt f i ^^^ byteAt f' i) = xorBytes f' := by
  rw [xorBytes_map_xor, map_byteAt_range, ← hlen, map_byteAt_range, h]
  exact BitVec.zero_xor

end Sys2Proof.Machine
end

section
/-!
What the decoder reads of a frame (R102 to R105, R107), and the frame operations on a frame they are defined for.
-/

namespace Sys2Proof.Machine

/-- `{hi, lo}` as a number. -/
theorem toNat_combine (hi lo : Byte) : (combine hi lo).toNat = lo.toNat + 256 * hi.toNat := by
  have hhi : hi.toNat <<< 8 < 2 ^ 16 := by rw [Nat.shiftLeft_eq]; omega
  rw [combine, BitVec.toNat_or, BitVec.toNat_shiftLeft, BitVec.toNat_setWidth_of_le (by decide),
    BitVec.toNat_setWidth_of_le (by decide), Nat.mod_eq_of_lt hhi, ← Nat.shiftLeft_add_eq_or_of_lt lo.isLt,
    Nat.shiftLeft_eq]
  omega

theorem byteAt_eq_of_take_eq {f f' : Frame} {n i : Nat} (h : f.take n = f'.take n) (hi : i < n) :
    byteAt f i = byteAt f' i := by
  have hget := congrArg (·[i]?) h
  simp only [List.getElem?_take_of_lt hi] at hget
  simp only [byteAt, List.getD_eq_getElem?_getD, hget]

theorem exec_decode_of_frame {s : State} {f : Frame} (n : Millis) (hl : s.cfg.legal = true)
    (hp : s.phase ≠ .reserved) (hf : f.length = s.cfg.frameLen) :
    exec (.decode f n) s = .next (s.answer (.result (decodeFrame s.cfg f n))) := onFrame_of_frame _ hl hp hf

/-- A message row on a passing frame of its type answers its result, and so does DECODE when that is the verdict. -/
theorem exec_messageRow_eq_decode {i : Instr} {s : State} {f : Frame} {cond : Bool} {r : Result} {n : Millis}
    (hl : s.cfg.legal = true) (hp : s.phase ≠ .reserved) (hf : f.length = s.cfg.frameLen) (hc : cond = true)
    (hi : exec i s = onFrame s f (onRow s cond (.next (s.answer (.result r)))))
    (hr : decodeFrame s.cfg f n = r) :
    exec i s = .next (s.answer (.result r)) ∧ exec (.decode f n) s = exec i s := by
  have hrun : exec i s = .next (s.answer (.result r)) := by
    rw [hi, onFrame_of_frame _ hl hp hf, onRow_of_holds _ hl hp hc]
  exact ⟨hrun, by rw [hrun, exec_decode_of_frame n hl hp hf, hr]⟩

theorem isSingle_typeOf {c : Config} {f : Frame} (ht : byteAt f 0 = c.msgSingle) (hm : byteAt f 0 ≠ c.syncMarker) :
    isSingle c (typeOf f) = true := isSingle_iff.2 (typeOf_eq_byteAt f ▸ ⟨ht, hm⟩)

theorem isBulk_typeOf {c : Config} {f : Frame} (ht : byteAt f 0 = c.msgBulk) (hm : byteAt f 0 ≠ c.syncMarker) :
    isBulk c (typeOf f) = true := isBulk_iff.2 (typeOf_eq_byteAt f ▸ ⟨ht, hm⟩)

theorem not_isSingle_not_isBulk_typeOf {c : Config} {f : Frame}
    (ht : (byteAt f 0 ≠ c.msgSingle ∧ byteAt f 0 ≠ c.msgBulk) ∨ byteAt f 0 = c.syncMarker) :
    isSingle c (typeOf f) = false ∧ isBulk c (typeOf f) = false :=
  not_isSingle_not_isBulk_iff.2 (typeOf_eq_byteAt f ▸ ht)

/-- The verdict on a passing frame is made of bytes 0 to 4 and the draw (R107). -/
theorem decodeFrame_congr {c : Config} {f f' : Frame} (n : Millis) (h : checksumOk c f = true)
    (h' : checksumOk c f' = true) (hbyte : ∀ i < 5, byteAt f i = byteAt f' i) :
    decodeFrame c f n = decodeFrame c f' n := by
  have htype : typeOf f = typeOf f' := by simpa only [typeOf_eq_byteAt] using hbyte 0 (by decide)
  have hseq : seqOf f = seqOf f' := congrArg₂ combine (hbyte 2 (by decide)) (hbyte 1 (by decide))
  have hlow : tempLow f = tempLow f' := hbyte 3 (by decide)
  have hhigh : tempHigh f = tempHigh f' := hbyte 4 (by decide)
  simp only [decodeFrame, h, h', htype, singleResult, singleSample, bulkResult, unknownResult, hseq, hlow, hhigh,
    Bool.not_true, Bool.false_eq_true, if_false]

end Sys2Proof.Machine
end

section
/-! The obligations of 41_frame_decoder.md. -/

namespace Sys2Proof.Proofs

open Sys2Proof.Machine Sys2Proof.Safety

/-- Settles O15: the XOR of a changed frame is the XOR of the differences, whose bit `j` is the parity of the flips at
`j`; a flip of one bit lays a one-bit mask over it, and the same mask twice takes it away again. -/
theorem xorDetectsOddFlips : Obligations.XorDetectsOddFlips := by
  intro c f f' hl hf hf' hok
  have hzero : xorBytes f = 0 := (checksumOk_iff_xorBytes_eq_zero hl hf).1 hok
  refine ⟨?_, ?_, ?_⟩
  · have hdiff := xorBytes_differences hzero (hf.trans hf'.symm)
    rw [checksumOk_eq_false_iff_xorBytes_ne_zero hl hf', byte_ne_zero_iff, ← hdiff, hf']
    simp only [getLsbD_xorBytes_iff, List.countP_map, Function.comp_def, BitVec.getLsbD_xor, Bool.bne_eq_xor]
  · rintro i hi j hj rfl
    rw [checksumOk_eq_false_iff_xorBytes_ne_zero hl hf', xorBytes_set_xor _ (hf ▸ hi), hzero, byte_ne_zero_iff]
    exact ⟨j, hj, by simp [hj]⟩
  · rintro i hi k hk j - hik rfl
    have hk' : k < (f.set i (byteAt f i ^^^ (1#8 <<< j))).length := by rwa [List.length_set, hf]
    rw [checksumOk_iff_xorBytes_eq_zero hl hf', ← byteAt_set_ne _ hik, xorBytes_set_xor _ hk',
      xorBytes_set_xor _ (hf ▸ hi), hzero, BitVec.xor_assoc, BitVec.xor_self]
    exact BitVec.zero_xor

/-- Settles O11: a frame of `FRAME_LEN` bytes is its body and its checksum byte, whose XOR is that of all the bytes. -/
theorem checksumIsXorOfBytes : Obligations.ChecksumIsXorOfBytes := by
  refine ⟨?_, fun c hl => ?_⟩
  · rintro s f last body hl hp hf rfl
    have hlen : body.length + 1 = s.cfg.frameLen := by simpa using hf
    refine ⟨checksumOk s.cfg (body ++ [last]), onFrame_of_frame _ hl hp hf, ?_,
      checksumOk_iff_xorBytes_eq_zero hl hf, fun body' hperm => ?_, fun hbad n => decodeFrame_of_bad n hbad⟩
    · rw [checksumOk_append_singleton last hlen]
      exact beq_iff_eq
    · rw [checksumOk_append_singleton last hlen, checksumOk_append_singleton last (hperm.length_eq ▸ hlen),
        xorBytes_eq_of_perm hperm]
  · exact (checksumOk_iff_xorBytes_eq_zero hl List.length_replicate).2 (xorBytes_replicate_zero _)

/-- Settles O10: by the decoder's case of the frame; the sequence number is that of every case. -/
theorem decodeClassifiesFrame : Obligations.DecodeClassifiesFrame := by
  intro s f n hl hp hf
  refine ⟨decodeFrame s.cfg f n, exec_decode_of_frame n hl hp hf, ?_, fun h => ?_, fun h ht hm => ?_,
    fun h ht hm => ?_, fun h ht => ?_⟩
  · obtain ⟨-, -, hseq, -⟩ := resultHasSampleExactlyOnSample s.cfg f n
    rw [hseq, seqOf, toNat_combine]
  · rw [decodeFrame_of_bad n h]
    exact ⟨rfl, rfl⟩
  · exact decodeFrame_of_single n h (isSingle_typeOf ht hm)
  · have hb := isBulk_typeOf ht hm
    rw [decodeFrame_of_bulk n h (isSingle_of_isBulk hl hb) hb]
    exact ⟨rfl, rfl⟩
  · obtain ⟨hs, hb⟩ := not_isSingle_not_isBulk_typeOf ht
    rw [decodeFrame_of_unknown n h hs hb]
    exact ⟨rfl, rfl⟩

/-- Settles O16: the verdict is made of bytes 0 to 4, on which the frames agree. -/
theorem payloadNotInterpreted : Obligations.PayloadNotInterpreted := fun _ _ _ n _ _ _ h h' htake =>
  decodeFrame_congr n h h' fun _ hi => byteAt_eq_of_take_eq htake hi

/-- Settles O12: the row's condition holds, and the verdict on such a frame is its result. -/
theorem singleReadingGivesSample : Obligations.SingleReadingGivesSample := by
  intro s f n hl hp hf h ht hm
  have hs := isSingle_typeOf ht hm
  exact exec_messageRow_eq_decode hl hp hf (by rw [h, hs]; rfl) rfl (decodeFrame_of_single n h hs)

/-- Settles O13: as O12; a bulk type is no single type. -/
theorem bulkGivesNoSample : Obligations.BulkGivesNoSample := by
  intro s f n hl hp hf h ht hm
  have hb := isBulk_typeOf ht hm
  exact exec_messageRow_eq_decode hl hp hf (by rw [h, hb]; rfl) rfl
    (decodeFrame_of_bulk n h (isSingle_of_isBulk hl hb) hb)

/-- Settles O14: as O12; such a type is neither of the two. -/
theorem unknownTypeDropped : Obligations.UnknownTypeDropped := by
  intro s f n hl hp hf h ht
  obtain ⟨hs, hb⟩ := not_isSingle_not_isBulk_typeOf ht
  exact exec_messageRow_eq_decode hl hp hf (by rw [h, hs, hb]; rfl) rfl (decodeFrame_of_unknown n h hs hb)

end Sys2Proof.Proofs
end

section
/-!
The temperature register as a number (42_temperature.md R121, R124, R125): its sign flag and its magnitude under each
`TEMP_NEG_MODE`.
-/

namespace Sys2Proof.Machine

/-- The bytes side by side: combining them as R64 does is the concatenation. -/
theorem combine_eq_append (high low : Byte) : combine high low = high ++ low :=
  BitVec.eq_of_toNat_eq <| by
    rw [toNat_combine, BitVec.toNat_append, ← Nat.shiftLeft_add_eq_or_of_lt low.isLt, Nat.shiftLeft_eq]
    omega

theorem signFlag_eq_ofBool (v : BitVec 16) : signFlag v = BitVec.ofBool (v.getLsbD 11) := by
  have hbit : v &&& 0x800 = if v.getLsbD 11 then BitVec.twoPow 16 11 else 0#16 := BitVec.and_twoPow v 11
  rw [signFlag, hbit]
  cases v.getLsbD 11 <;> decide

theorem signFlag_eq_one_iff (v : BitVec 16) : signFlag v = 1 ↔ v.getLsbD 11 = true := by
  rw [signFlag_eq_ofBool]
  cases v.getLsbD 11 <;> decide

theorem toNat_signFlag (v : BitVec 16) : (signFlag v).toNat = v.toNat / 2048 % 2 := by
  rw [signFlag_eq_ofBool, BitVec.toNat_ofBool, BitVec.getLsbD, Nat.toNat_testBit]

theorem toNat_signFlag_eq_zero_or_one (v : BitVec 16) : (signFlag v).toNat = 0 ∨ (signFlag v).toNat = 1 :=
  Nat.le_one_iff_eq_zero_or_eq_one.1 (Nat.le_of_lt_succ (signFlag v).isLt)

/-- `S` of the combined register is bit 3 of the high byte. -/
theorem toNat_signFlag_combine (high low : Byte) :
    (signFlag (combine high low)).toNat = high.toNat / 8 % 2 := by
  have hlow := low.isLt
  rw [toNat_signFlag, toNat_combine]
  omega

/-- R121 step 3: the magnitude is the low 11 bits of the register after step 2. -/
theorem toNat_magnitude (mode : TempNegMode) (v : BitVec 16) :
    (magnitude mode v).toNat = (magnitudeSource mode v).toNat % 2048 := by
  have hmask (n : Nat) : n &&& 2047 = n % 2048 := Nat.and_two_pow_sub_one_eq_mod n 11
  simp [magnitude, hmask]

theorem toNat_magnitude_signMagnitude (v : BitVec 16) :
    (magnitude .signMagnitude v).toNat = v.toNat % 2048 := toNat_magnitude .signMagnitude v

theorem toNat_magnitude_complement_of_nonneg {v : BitVec 16} (h : (signFlag v).toNat = 0) :
    (magnitude .complement v).toNat = v.toNat % 2048 := by
  have hs : signFlag v ≠ 1 := fun hs => by simp [hs] at h
  rw [toNat_magnitude, magnitudeSource, if_neg hs]

theorem toNat_magnitude_complement_of_neg {v : BitVec 16} (h : (signFlag v).toNat = 1) :
    (magnitude .complement v).toNat = (2048 - v.toNat % 2048) % 2048 := by
  have hs : signFlag v = 1 := BitVec.eq_of_toNat_eq h
  have hneg : ~~~v + 1 = -v := (BitVec.neg_eq_not_add v).symm
  have hlt := v.isLt
  rw [toNat_magnitude, magnitudeSource, if_pos hs, hneg, BitVec.toNat_neg]
  omega

/-- A nonnegative register has the same magnitude under either mode. -/
theorem toNat_magnitude_of_nonneg {mode : TempNegMode} {v : BitVec 16} (h : (signFlag v).toNat = 0) :
    (magnitude mode v).toNat = v.toNat % 2048 := by
  cases mode with
  | complement => exact toNat_magnitude_complement_of_nonneg h
  | signMagnitude => exact toNat_magnitude_signMagnitude v

end Sys2Proof.Machine
end

section
/-!
The digits of a rendered temperature (42_temperature.md R123) and what they read back as: the integer part is its own
decimal, the fraction is the exact number of sixteenths, and neither holds a point.
-/

namespace Sys2Proof.Machine

@[simp] theorem digitVal_digitChar (n : Nat) : digitVal (digitChar n) = some (n % 10) := by
  have hall : ∀ d < 10, digitVal (Char.ofNat (48 + d)) = some d := by decide
  exact hall _ (Nat.mod_lt n (by decide))

theorem readDigits_append_singleton_eq_some_iff {x : Text} {ch : Char} {n : Nat} :
    readDigits (x ++ [ch]) = some n ↔
      ∃ m d, readDigits x = some m ∧ digitVal ch = some d ∧ 10 * m + d = n := by
  simp [readDigits, List.foldl_append, Option.bind_eq_some_iff]

theorem readDigits_padDigits (n k : Nat) : readDigits (padDigits n k) = some (k % 10 ^ n) := by
  induction n generalizing k with
  | zero => simp [padDigits, readDigits, Nat.mod_one]
  | succ n ih =>
    refine readDigits_append_singleton_eq_some_iff.2 ⟨_, _, ih (k / 10), digitVal_digitChar k, ?_⟩
    rw [pow_succ', Nat.mod_mul, Nat.add_comm]

theorem head?_padDigits_succ (n k : Nat) : (padDigits (n + 1) k).head? = some (digitChar (k / 10 ^ n)) := by
  induction n generalizing k with
  | zero => simp [padDigits]
  | succ n ih =>
    rw [padDigits, List.head?_append, ih, Nat.div_div_eq_div_mul, ← pow_succ']
    rfl

/-- A text of digits holds no point. -/
theorem point_notMem_of_readDigits {x : Text} {n : Nat} (h : readDigits x = some n) : '.' ∉ x := by
  induction x using List.reverseRecOn generalizing n with
  | nil => exact List.not_mem_nil
  | append_singleton x ch ih =>
    obtain ⟨m, d, hx, hch, -⟩ := readDigits_append_singleton_eq_some_iff.1 h
    have hne : '.' ≠ ch := by
      rintro rfl
      exact absurd hch nofun
    simp [ih hx, hne]

/-- `decimal` pads to as many digits as the number has. -/
theorem exists_decimal_eq_padDigits {k : Nat} (hk : k < 1000) :
    ∃ n, decimal k = padDigits (n + 1) k ∧ k < 10 ^ (n + 1) ∧ (n = 0 ∨ 10 ^ n ≤ k) := by
  unfold decimal
  split_ifs with h₁ h₂
  · exact ⟨0, rfl, h₁, .inl rfl⟩
  · exact ⟨1, rfl, h₂, .inr (Nat.le_of_not_lt h₁)⟩
  · exact ⟨2, rfl, hk, .inr (Nat.le_of_not_lt h₂)⟩

theorem readDigits_decimal {k : Nat} (hk : k < 1000) : readDigits (decimal k) = some k := by
  obtain ⟨n, hdec, hlt, -⟩ := exists_decimal_eq_padDigits hk
  rw [hdec, readDigits_padDigits, Nat.mod_eq_of_lt hlt]

theorem decimal_ne_nil {k : Nat} (hk : k < 1000) : decimal k ≠ [] := by
  obtain ⟨n, hdec, -⟩ := exists_decimal_eq_padDigits hk
  rw [hdec, padDigits]
  exact List.concat_ne_nil _ _

/-- Only the decimal of 0 begins with a zero. -/
theorem decimal_eq_zero_of_head?_eq {k : Nat} (hk : k < 1000) (h : (decimal k).head? = some '0') :
    decimal k = ['0'] := by
  obtain ⟨n, hdec, hlt, hn⟩ := exists_decimal_eq_padDigits hk
  rw [hdec, head?_padDigits_succ, Option.some_inj] at h
  have hlead : k / 10 ^ n % 10 = 0 := by
    have hval := digitVal_digitChar (k / 10 ^ n)
    rw [h] at hval
    exact (Option.some_inj.1 hval).symm
  have hdigit : k / 10 ^ n < 10 := Nat.div_lt_of_lt_mul (by rwa [← pow_succ])
  have hsmall : k < 10 ^ n := by
    rw [Nat.mod_eq_of_lt hdigit] at hlead
    exact (Nat.div_eq_zero_iff_lt (by positivity)).1 hlead
  obtain rfl : n = 0 := hn.resolve_right (Nat.not_le.2 hsmall)
  obtain rfl : k = 0 := by simpa using hsmall
  rfl

/-- The table of R123: `FRAC[k]` is exactly `k/16`. -/
theorem exists_readDigits_fracDigits {k : Nat} (hk : k < 16) :
    ∃ n, readDigits (fracDigits k) = some n ∧ n * 16 = k * 10 ^ (fracDigits k).length := by
  have htable : ∀ k < 16,
      (readDigits (fracDigits k)).map (· * 16) = some (k * 10 ^ (fracDigits k).length) := by decide
  exact Option.map_eq_some_iff.1 (htable k hk)

/-- The table of R123: no trailing zeros, but at least one digit. -/
theorem fracDigits_minimal {k : Nat} (hk : k < 16) :
    fracDigits k ≠ [] ∧ ((fracDigits k).getLast? = some '0' → fracDigits k = ['0']) := by
  have htable : ∀ k < 16,
      fracDigits k ≠ [] ∧ ((fracDigits k).getLast? = some '0' → fracDigits k = ['0']) := by decide
  exact htable k hk

theorem decimal_injOn {k k' : Nat} (hk : k < 1000) (hk' : k' < 1000) (h : decimal k = decimal k') : k = k' :=
  Option.some_inj.1 (by rw [← readDigits_decimal hk, h, readDigits_decimal hk'])

theorem fracDigits_injOn {k k' : Nat} (hk : k < 16) (hk' : k' < 16) (h : fracDigits k = fracDigits k') :
    k = k' := by
  obtain ⟨n, hread, hval⟩ := exists_readDigits_fracDigits hk
  obtain ⟨n', hread', hval'⟩ := exists_readDigits_fracDigits hk'
  obtain rfl : n = n' := Option.some_inj.1 (by rw [← hread, h, hread'])
  rw [h] at hval
  exact Nat.eq_of_mul_eq_mul_right (by positivity) (hval.symm.trans hval')

/-- The magnitude's integer part is in the range of `decimal`. -/
theorem integerPart_lt (mag : BitVec 11) : mag.toNat / 16 < 1000 := by
  have := mag.isLt
  omega

theorem sixteenths_lt (mag : BitVec 11) : mag.toNat % 16 < 16 := Nat.mod_lt _ (by decide)

end Sys2Proof.Machine
end

section
/-! The value in degrees (42_temperature.md R122). -/

namespace Sys2Proof.Machine

/-- Every legal `TEMP_LSB` is one sixteenth, however the fraction is written. -/
theorem degrees_eq_sixteenths {c : Config} (sign : BitVec 1) (mag : BitVec 11) (hl : c.legal = true) :
    degrees c sign mag = (-1) ^ sign.toNat * mag.toNat / 16 := by
  obtain ⟨-, -, -, -, hlsb, hpos, -⟩ := legal_iff.1 hl
  have hnum : (c.tempLsb.1 : ℚ) ≠ 0 := Nat.cast_ne_zero.2 (by omega)
  rw [degrees, ← hlsb]
  push_cast
  field_simp

theorem abs_degrees {c : Config} (sign : BitVec 1) (mag : BitVec 11) (hl : c.legal = true) :
    |degrees c sign mag| = (mag.toNat : ℚ) / 16 := by
  rw [degrees_eq_sixteenths sign mag hl, abs_div, abs_mul, abs_neg_one_pow, one_mul, Nat.abs_cast, Nat.abs_ofNat]

theorem toNat_extractLsb_integer (mag : BitVec 11) : (mag.extractLsb 10 4).toNat = mag.toNat / 16 := by
  have := mag.isLt
  rw [BitVec.extractLsb_toNat, Nat.shiftRight_eq_div_pow]
  omega

theorem toNat_extractLsb_fraction (mag : BitVec 11) : (mag.extractLsb 3 0).toNat = mag.toNat % 16 := by
  rw [BitVec.extractLsb_toNat]
  rfl

end Sys2Proof.Machine
end

section
/-! The obligations of 42_temperature.md. -/

namespace Sys2Proof.Proofs

open Sys2Proof.Machine

/-- Settles O18: the flag and the magnitude of the combined register, by sign and mode. -/
theorem tempDecodeClosedForm : Obligations.TempDecodeClosedForm := by
  intro s high low hl hp
  have hreg : high.toNat * 256 + low.toNat = (combine high low).toNat := by rw [toNat_combine]; omega
  rw [hreg]
  refine ⟨_, _, whenDefined_of_legal _ hl hp, toNat_signFlag_combine high low, toNat_magnitude_of_nonneg,
    fun hs hm => ?_, fun hs hm => ?_⟩
  · rw [tempDecode, hm]
    exact toNat_magnitude_complement_of_neg hs
  · rw [tempDecode, hm]
    exact toNat_magnitude_signMagnitude _

/-- Settles O19: the sign is the same; a nonnegative register has one magnitude, and a negative one has `M` and
`(2048 - M) mod 2048`, equal when `M` is 0 or half of 2048. -/
theorem negativeModesAgreeExactly : Obligations.NegativeModesAgreeExactly := by
  intro c high low
  have hreg : high.toNat * 256 + low.toNat = (combine high low).toNat := by rw [toNat_combine]; omega
  simp only [tempDecode, Prod.mk.injEq, true_and, ← BitVec.toNat_inj, toNat_magnitude_signMagnitude, hreg,
    ← toNat_signFlag_combine high low]
  rcases toNat_signFlag_eq_zero_or_one (combine high low) with hs | hs
  · rw [toNat_magnitude_complement_of_nonneg hs]
    exact iff_of_true rfl (.inl hs)
  · rw [toNat_magnitude_complement_of_neg hs]
    omega

/-- Settles O20: by the sign, the register being below 2048 or above 63488 within the range. -/
theorem signExtendedReadsTwosComplement : Obligations.SignExtendedReadsTwosComplement := by
  intro c high low hc
  simp only [tempDecode, hc, combine_eq_append]
  generalize high ++ low = v
  refine ⟨fun hlo hhi => ?_, ?_, signFlag_eq_one_iff v⟩
  · have hsign := toNat_signFlag v
    rw [BitVec.toInt_eq_toNat_cond] at hlo hhi ⊢
    rcases toNat_signFlag_eq_zero_or_one v with hs | hs
    · rw [hs, toNat_magnitude_complement_of_nonneg hs]
      omega
    · rw [hs, toNat_magnitude_complement_of_neg hs]
      omega
  · rintro rfl
    decide

/-- Settles O22: the integer part is `decimal` of the quotient by 16, the fraction the table's row of the remainder. -/
theorem renderIsExactDecimal : Obligations.RenderIsExactDecimal := by
  intro s sign mag hl hp
  have hint := integerPart_lt mag
  have hfrac := sixteenths_lt mag
  exact ⟨decimal (mag.toNat / 16), fracDigits (mag.toNat % 16), whenDefined_of_legal _ hl hp,
    readDigits_decimal hint, decimal_ne_nil hint, decimal_eq_zero_of_head?_eq hint,
    exists_readDigits_fracDigits hfrac, fracDigits_minimal hfrac⟩

/-- Settles O23: the first character tells the sign; the one point parts the integer from the fraction, and each is
read back. -/
theorem renderingIsInjective : Obligations.RenderingIsInjective := by
  intro sign sign' mag mag' h
  obtain ⟨hsign, htail⟩ := List.cons_eq_cons.1 h
  obtain ⟨n, hread, -⟩ := exists_readDigits_fracDigits (sixteenths_lt mag)
  obtain ⟨hint, -, hfrac⟩ := (List.append_cons_inj_of_notMem
    (point_notMem_of_readDigits (readDigits_decimal (integerPart_lt mag)))
    (point_notMem_of_readDigits hread)).1 htail
  have hdiv := decimal_injOn (integerPart_lt mag) (integerPart_lt mag') hint
  have hmod := fracDigits_injOn (sixteenths_lt mag) (sixteenths_lt mag') hfrac
  have hchar : ∀ a b : BitVec 1, (if a = 1 then '-' else '+') = (if b = 1 then '-' else '+') → a = b := by decide
  exact ⟨hchar sign sign' hsign, BitVec.eq_of_toNat_eq (by omega)⟩

/-- Settles O21: a legal `TEMP_LSB` is one sixteenth, and the magnitude is at most 2047. -/
theorem degreesAreSixteenths : Obligations.DegreesAreSixteenths := by
  intro c sign mag hl
  have hmag : mag.toNat ≤ 2047 := Nat.le_of_lt_succ mag.isLt
  have habs := abs_degrees sign mag hl
  have hrange : |degrees c sign mag| ≤ 127.9375 := by
    have hcast : (mag.toNat : ℚ) ≤ 2047 := by exact_mod_cast hmag
    rw [habs]
    linarith
  obtain ⟨hlo, hhi⟩ := abs_le.1 hrange
  refine ⟨degrees_eq_sixteenths sign mag hl, ?_, ?_, hlo, hhi, by simp [degrees]⟩
  · have hsplit : (mag.toNat : ℚ) = 16 * (mag.toNat / 16 : ℕ) + (mag.toNat % 16 : ℕ) := by
      exact_mod_cast (Nat.div_add_mod mag.toNat 16).symm
    rw [habs, toNat_extractLsb_integer, toNat_extractLsb_fraction, hsplit]
    ring
  · rw [toNat_extractLsb_integer]
    omega

end Sys2Proof.Proofs
end

section
/-!
When a run of BYTE steps completes and when it is refused (40_synchronizer.md R88, 60_exceptions.md R174), and chunks
fed one after another (43_host_interface.md R142).
-/

namespace Sys2Proof.Safety

open Sys2Proof.Machine

theorem byteStep_of_reserved {s : State} (b : InByte) (hp : s.phase = .reserved) :
    byteStep b s = .refused .reservedPhase :=
  byteStep_of_error (selectRow_eq_error_iff.2 ⟨hp, rfl⟩)

theorem byteStep_of_illegal {s : State} (b : InByte) (hl : s.cfg.legal = false) (hp : s.phase ≠ .reserved) :
    byteStep b s = .refused .illegalConfig := by
  obtain ⟨row, hrow⟩ := exists_selectRow_eq_ok (c := s.ctrl) b.data hp
  rw [byteStep_of_row hrow, exec_of_illegal _ hl]

theorem legal_of_byteStep_eq_next {b : InByte} {s t : State} (h : byteStep b s = .next t) : s.cfg.legal = true := by
  obtain ⟨row, hrow, -⟩ := byteStep_next h
  rw [byteStep_of_row (selectRow_eq_ok_iff.2 hrow)] at h
  exact (legal_of_exec_eq_next h).1

theorem rowNext_phase_ne_reserved {b : Byte} {s : State} {row : ByteRow} (n : Millis) (hp : s.phase ≠ .reserved) :
    (rowNext b n s row).phase ≠ .reserved := by
  cases row with
  | markLock | start | complete => exact Phase.noConfusion
  | markCount | other | markSkip | append => exact hp

/-- No byte stops a run outside the reserved phase, and none leads into it (R93). -/
theorem exists_runBytes_eq_next {s : State} (w : List InByte) (hl : s.cfg.legal = true) (hp : s.phase ≠ .reserved) :
    ∃ t outs, runBytes w s = .next (t, outs) := by
  induction w generalizing s with
  | nil => exact ⟨s, [], rfl⟩
  | cons b w ih =>
    obtain ⟨row, hrow⟩ := exists_selectRow_eq_ok (c := s.ctrl) b.data hp
    obtain ⟨t, outs, hw⟩ := ih (s := rowNext b.data b.nowMs s row) (by rwa [rowNext_cfg])
      (rowNext_phase_ne_reserved b.nowMs hp)
    rw [runBytes_cons_of_next (byteStep_of_holds hl (selectRow_eq_ok_iff.1 hrow)), hw]
    exact ⟨t, _, rfl⟩

/-- A run puts out one record a byte (R30). -/
theorem length_of_runBytes_eq_next {w : List InByte} {s t : State} {outs : List Out}
    (h : runBytes w s = .next (t, outs)) : outs.length = w.length := by
  induction w generalizing s outs with
  | nil => cases h; rfl
  | cons b w ih =>
    obtain ⟨s₁, rest, -, hw, rfl⟩ := runBytes_cons_next h
    exact congrArg Nat.succ (ih hw)

/-- A run is refused at its first byte or not at all, and the state it starts in says why. -/
theorem runBytes_eq_refused_iff {w : List InByte} {s : State} {r : Refusal} : runBytes w s = .refused r ↔
    w ≠ [] ∧ (s.phase = .reserved ∧ r = .reservedPhase
      ∨ s.phase ≠ .reserved ∧ s.cfg.legal = false ∧ r = .illegalConfig) := by
  by_cases hp : s.phase = .reserved
  · cases w with
    | nil => simp [runBytes_nil]
    | cons b w => simp [runBytes_cons_of_refused (byteStep_of_reserved b hp), hp, eq_comm (b := r)]
  · cases hl : s.cfg.legal with
    | true =>
      obtain ⟨t, outs, h⟩ := exists_runBytes_eq_next w hl hp
      simp [h, hp]
    | false =>
      cases w with
      | nil => simp [runBytes_nil]
      | cons b w => simp [runBytes_cons_of_refused (byteStep_of_illegal b hl hp), hp, eq_comm (b := r)]

theorem runBytes_append_of_refused {v : List InByte} {s : State} {r : Refusal} (w : List InByte)
    (hv : runBytes v s = .refused r) : runBytes (v ++ w) s = .refused r := by
  obtain ⟨hne, hr⟩ := runBytes_eq_refused_iff.1 hv
  exact runBytes_eq_refused_iff.2 ⟨List.append_ne_nil_of_left_ne_nil hne w, hr⟩

theorem runBytes_append_of_next_of_refused {v w : List InByte} {s t : State} {outs : List Out} {r : Refusal}
    (hv : runBytes v s = .next (t, outs)) (hw : runBytes w t = .refused r) : runBytes (v ++ w) s = .refused r := by
  induction v generalizing s outs with
  | nil => cases hv; exact hw
  | cons b v ih =>
    obtain ⟨s₁, rest, hb, hrest, -⟩ := runBytes_cons_next hv
    rw [List.cons_append, runBytes_cons_of_next hb, ih hrest]

/-- Chunks fed one after another are their concatenation (R142). -/
theorem runChunks_eq_runBytes_flatten (ws : List (List InByte)) (s : State) :
    runChunks ws s = runBytes ws.flatten s := by
  induction ws generalizing s with
  | nil => rfl
  | cons w ws ih =>
    rw [List.flatten_cons]
    cases hw : runBytes w s with
    | fault r => cases r
    | refused r => simp only [runChunks, hw, runBytes_append_of_refused ws.flatten hw]
    | next p =>
      obtain ⟨t, outs⟩ := p
      simp only [runChunks, hw, ih]
      cases hws : runBytes ws.flatten t with
      | fault r => cases r
      | refused r => exact (runBytes_append_of_next_of_refused hw hws).symm
      | next q => exact (runBytes_append_of_next hw hws).symm

end Sys2Proof.Safety
end

section
/-!
The draws reach nothing but `ts_ms` (R142): the state a byte row leads to takes its draw into the output alone, and no
row reads the output it finds. Two states that are the same once silenced differ in `out` and `reply` at most.
-/

namespace Sys2Proof.Safety

open Sys2Proof.Machine

/-- Only a sample carries the draw (R100, R103). -/
theorem eraseTime_decodeFrame (c : Config) (f : Frame) (n n' : Millis) :
    eraseTime (decodeFrame c f n) = eraseTime (decodeFrame c f n') := by
  unfold decodeFrame
  split_ifs <;> rfl

@[simp] theorem rowNext_emit (b : Byte) (n : Millis) (s : State) (row : ByteRow) (o : Out) :
    rowNext b n (s.emit o) row = rowNext b n s row := by
  cases row <;> rfl

theorem emit_rowNext_eq (b : Byte) (n n' : Millis) (s : State) (row : ByteRow) (o : Out) :
    (rowNext b n s row).emit o = (rowNext b n' s row).emit o := by
  cases row <;> rfl

theorem eraseOutTime_rowNext_eq (b : Byte) (n n' : Millis) (s : State) (row : ByteRow) :
    eraseOutTime (rowNext b n s row).out = eraseOutTime (rowNext b n' s row).out := by
  cases row with
  | markCount | markLock | other | markSkip | start | append => rfl
  | complete =>
    simp only [rowNext, State.setFbuf_out, State.emit_out, completionOut, eraseOutTime, Option.map_some,
      eraseTime_decodeFrame _ _ n n']

/-- Streams of the same bytes run alike, whatever their draws. -/
theorem exists_runBytes_of_dataOf_eq {v w : List InByte} {s s' t : State} {outs : List Out}
    (hs : s.emit Out.silent = s'.emit Out.silent) (hvw : dataOf v = dataOf w)
    (h : runBytes v s = .next (t, outs)) :
    ∃ t' outs', runBytes w s' = .next (t', outs') ∧ t.emit Out.silent = t'.emit Out.silent
      ∧ outs.map eraseOutTime = outs'.map eraseOutTime := by
  induction v generalizing w s s' outs with
  | nil =>
    cases List.map_eq_nil_iff.1 hvw.symm
    cases h
    exact ⟨s', [], rfl, hs, rfl⟩
  | cons x v ih =>
    obtain ⟨y, w, rfl, hy, hvw'⟩ := List.map_eq_cons_iff.1 hvw.symm
    obtain ⟨s₁, rest, hx, hv, rfl⟩ := runBytes_cons_next h
    have hctrl : s.ctrl = s'.ctrl := (congrArg State.ctrl hs :)
    have hl' : s'.ctrl.cfg.legal = true := hctrl ▸ legal_of_byteStep_eq_next hx
    obtain ⟨row, hrow, rfl⟩ := byteStep_next hx
    have hrow' : rowHolds s'.ctrl y.data row = true := by rwa [hy, ← hctrl]
    have hnext : rowNext x.data y.nowMs s row = rowNext y.data y.nowMs s' row := by
      rw [hy, ← rowNext_emit _ _ s _ Out.silent, hs, rowNext_emit]
    obtain ⟨t', outs', hw, ht, houts⟩ := ih (s' := rowNext y.data y.nowMs s' row)
      (by rw [emit_rowNext_eq _ _ y.nowMs, hnext]) hvw'.symm hv
    refine ⟨t', (rowNext y.data y.nowMs s' row).out :: outs', ?_, ht, ?_⟩
    · rw [runBytes_cons_of_next (byteStep_of_holds hl' hrow'), hw]
    · rw [List.map_cons, List.map_cons, houts, eraseOutTime_rowNext_eq _ _ y.nowMs, hnext]

theorem runBytes_refused_of_dataOf_eq {v w : List InByte} {s : State} {r : Refusal} (hvw : dataOf v = dataOf w)
    (h : runBytes v s = .refused r) : runBytes w s = .refused r := by
  obtain ⟨hne, hr⟩ := runBytes_eq_refused_iff.1 h
  refine runBytes_eq_refused_iff.2 ⟨fun hw => hne ?_, hr⟩
  rw [hw] at hvw
  exact List.map_eq_nil_iff.1 hvw

end Sys2Proof.Safety
end

section
/-!
The host's calls: FEED and POLL on a run that completes (R140, R141), and what a sample shows (R144, R126, R153).
-/

namespace Sys2Proof.Machine

theorem feedThen_of_next {w : List InByte} {s t : State} {outs : List Out} (reply : List Result → Reply)
    (h : runBytes w s = .next (t, outs)) : feedThen w reply s = .next (t.answer (reply (resultsOf outs))) := by
  simp only [feedThen, h]

theorem exec_feed_of_next {w : List InByte} {s t : State} {outs : List Out} (hl : s.cfg.legal = true)
    (hp : s.phase ≠ .reserved) (h : runBytes w s = .next (t, outs)) :
    exec (.feed w) s = .next (t.answer (.results (resultsOf outs))) :=
  (whenDefined_of_legal _ hl hp).trans (feedThen_of_next _ h)

theorem exec_poll_of_next {leftover : List InByte} {chunks : List (List InByte)} {s t : State} {outs : List Out}
    (hl : s.cfg.legal = true) (hp : s.phase ≠ .reserved)
    (h : runBytes (leftover ++ chunks.flatten) s = .next (t, outs)) :
    exec (.poll leftover chunks) s = .next (t.answer (.polled (samplesOf (resultsOf outs)) [])) :=
  (whenDefined_of_legal _ hl hp).trans (feedThen_of_next _ h)

/-- A step on an offered byte is the BYTE step (R11, R88). -/
theorem step_bytePort {s : State} (b : InByte) (hl : s.cfg.legal = true) (hp : s.phase ≠ .reserved) :
    step (s.setInputs [bytePort b.data b.nowMs]) = byteStep b (s.setInputs []) := by
  obtain ⟨row, hrow⟩ := exists_selectRow_eq_ok (c := s.ctrl) b.data hp
  calc step (s.setInputs [bytePort b.data b.nowMs])
      = exec (rowInstr b.data b.nowMs row) (s.setInputs []) :=
        step_of_decode_ok (s := s.setInputs [bytePort b.data b.nowMs]) rfl
          (decode_bytePort_of_holds (c := s.ctrl) _ hl (selectRow_eq_ok_iff.1 hrow))
    _ = byteStep b (s.setInputs []) := (byteStep_of_row (s := s.setInputs []) hrow).symm

theorem sensorText_eq (k : SensorType) : sensorText k = "Temperature".toList := by
  cases k
  rfl

theorem unitText_eq (u : UnitTag) : unitText u = "Celsius".toList := by
  cases u
  rfl

theorem encodeTimestamp_of_le {c : Config} {t : Nat} (h : t ≤ tsMax) :
    encodeTimestamp c t = some (tsText c t) :=
  if_pos ⟨Int.natCast_nonneg t, Int.ofNat_le.2 h⟩

theorem encodeTimestamp_of_lt {c : Config} {t : Nat} (h : tsMax < t) : encodeTimestamp c t = none :=
  if_neg fun hle => Nat.not_le.2 h (Int.ofNat_le.1 hle.2)

end Sys2Proof.Machine
end

section
/-! The obligations of 43_host_interface.md. -/

namespace Sys2Proof.Proofs

open Sys2Proof.Machine Sys2Proof.Safety

/-- Settles O29: outside the reserved phase a run of BYTE steps completes, and FEED answers its results. -/
theorem feedRunsByteSteps : Obligations.FeedRunsByteSteps := by
  intro s hl hp
  refine ⟨fun chunk => ?_, exec_feed_of_next hl hp (runBytes_nil s), fun b chunk t t' outs hb hw => ?_,
    fun b => step_bytePort b hl hp⟩
  · obtain ⟨t, outs, h⟩ := exists_runBytes_eq_next chunk hl hp
    exact ⟨t, outs, h, length_of_runBytes_eq_next h, exec_feed_of_next hl hp h⟩
  · rw [runBytes_cons_of_next hb, hw]

/-- Settles O31: chunks run as their concatenation, and streams of the same bytes run alike. -/
theorem rechunkingChangesOnlyTimes : Obligations.RechunkingChangesOnlyTimes := by
  refine ⟨fun s ws => runChunks_eq_runBytes_flatten ws s, fun s ws w hdata => ?_⟩
  rw [runChunks_eq_runBytes_flatten]
  refine ⟨fun t outs h => ?_, fun r h => runBytes_refused_of_dataOf_eq hdata h⟩
  obtain ⟨t', outs', hw, ht, houts⟩ := exists_runBytes_of_dataOf_eq rfl hdata h
  exact ⟨t', outs', hw, (congrArg parserState ht :), (congrArg State.cfg ht :), (congrArg State.inputs ht :),
    houts⟩

/-- Settles O30: both calls answer from the one run of the leftover and the chunks. -/
theorem pollFeedsLeftoverThenChunks : Obligations.PollFeedsLeftoverThenChunks := by
  intro s leftover chunks hl hp
  obtain ⟨t, outs, h⟩ := exists_runBytes_eq_next (leftover ++ chunks.flatten) hl hp
  exact ⟨t, resultsOf outs, exec_feed_of_next hl hp h, exec_poll_of_next hl hp h⟩

/-- Settles O32: the timestamp string is TS_ENCODE's, and the tags have one rendering each. -/
theorem sampleShowsItsRenderings : Obligations.SampleShowsItsRenderings := by
  intro c x
  refine ⟨encodeTimestamp c x.tsMs.toNat, ?_, fun h => ?_, encodeTimestamp_of_lt⟩
  · rw [sampleView, sensorText_eq, unitText_eq]
  · exact ⟨_, encodeTimestamp_of_le h, encodeTimestamp_of_le h⟩

end Sys2Proof.Proofs
end

section
/-!
The calendar of R150 and R151 (44_timestamp.md). Both rows count days from 1 March of the year 0, in years that begin in
March, so that the leap day ends the year. In that count a day has one year, month and day, and so the two functions are
inverse on the dates of R151.
-/

namespace Sys2Proof.Machine

/-- The days before the March year `y`. -/
def yearStart (y : Nat) : Nat := 365 * y + y / 4 - y / 100 + y / 400

/-- The days of a March year before its month `k`, with March as month 0. -/
def monthStart (k : Nat) : Nat := (153 * k + 2) / 5

/-- The March year that the month `m` of the year `y` lies in. -/
def marchYear (y m : Nat) : Nat := if m ≤ 2 then y - 1 else y

/-- The place of the month `m` in its March year. -/
def marchMonth (m : Nat) : Nat := if m > 2 then m - 3 else m + 9

/-- Day `d` of month `k` of the March year `y` is the day `n` of the count. -/
def IsMarchDate (n y k d : Nat) : Prop :=
  n = yearStart y + (monthStart k + d) ∧ monthStart k + d < monthStart (k + 1) ∧ n < yearStart (y + 1)

/-- The ranges R151 requires of a date. -/
def IsDate (y m d : Nat) : Prop := 1 ≤ m ∧ m ≤ 12 ∧ 1 ≤ d ∧ d ≤ daysInMonth y m

theorem yearStart_strictMono : StrictMono yearStart :=
  strictMono_nat_of_lt_succ fun y => by unfold yearStart; omega

theorem monthStart_strictMono : StrictMono monthStart :=
  strictMono_nat_of_lt_succ fun k => by unfold monthStart; omega

/-- Intervals that begin at 0 and adjoin hold every number. -/
theorem exists_le_and_lt_succ {f : Nat → Nat} (hf : StrictMono f) (h0 : f 0 = 0) (n : Nat) :
    ∃ a, f a ≤ n ∧ n < f (a + 1) := by
  induction n with
  | zero => exact ⟨0, h0.le, h0.symm.trans_lt (hf Nat.zero_lt_one)⟩
  | succ n ih =>
    obtain ⟨a, ha, hlt⟩ := ih
    rcases Nat.lt_or_eq_of_le (Nat.succ_le_of_lt hlt) with h | h
    · exact ⟨a, ha.trans n.le_succ, h⟩
    · exact ⟨a + 1, h.ge, h.trans_lt (hf (Nat.lt_succ_self _))⟩

/-- Every day has a date. -/
theorem exists_isMarchDate (n : Nat) : ∃ y k d, IsMarchDate n y k d := by
  obtain ⟨y, hy, hy'⟩ := exists_le_and_lt_succ yearStart_strictMono rfl n
  obtain ⟨k, hk, hk'⟩ := exists_le_and_lt_succ monthStart_strictMono rfl (n - yearStart y)
  exact ⟨y, k, n - yearStart y - monthStart k, by omega, by omega, hy'⟩

theorem isLeap_iff {y : Nat} : isLeap y = true ↔ 4 ∣ y ∧ (100 ∣ y → 400 ∣ y) := by
  have h : 400 ∣ y → 4 ∣ y := (by decide : 4 ∣ 400).trans
  simp only [isLeap, Bool.or_eq_true, Bool.and_eq_true, beq_iff_eq, bne_iff_ne, ne_eq, ← Nat.dvd_iff_mod_eq_zero]
  tauto

/-- A March year ends with the February of the next year. -/
theorem yearStart_succ (y : Nat) : yearStart (y + 1) = yearStart y + if isLeap (y + 1) then 366 else 365 := by
  have hle : y / 100 ≤ y / 4 := Nat.div_le_div_left (by decide) (by decide)
  simp only [yearStart, isLeap_iff, Nat.succ_div]
  by_cases h400 : 400 ∣ y + 1
  · have h100 : 100 ∣ y + 1 := (by decide : 100 ∣ 400).trans h400
    have h4 : 4 ∣ y + 1 := (by decide : 4 ∣ 400).trans h400
    simp only [h4, h100, h400, if_true, imp_self, and_self]
    omega
  by_cases h100 : 100 ∣ y + 1
  · have h4 : 4 ∣ y + 1 := (by decide : 4 ∣ 100).trans h100
    simp only [h4, h100, h400, if_true, if_false, true_imp_iff, and_false]
    omega
  by_cases h4 : 4 ∣ y + 1
  · simp only [h4, h100, h400, if_true, if_false, false_imp_iff, and_self]
    omega
  · simp only [h4, h100, h400, if_false, false_and]
    omega

/-- Year `j` of the four years `q` of century `c` of an era. -/
theorem yearStart_of_parts {c q j : Nat} (hc : c < 4) (hq : q < 25) (hj : j < 4) :
    yearStart (100 * c + (4 * q + j)) = 36524 * c + (1461 * q + 365 * j) := by
  have hfours : (100 * c + (4 * q + j)) / 4 = 25 * c + q := by omega
  have hcenturies : (100 * c + (4 * q + j)) / 100 = c := by omega
  have hera : (100 * c + (4 * q + j)) / 400 = 0 := by omega
  rw [yearStart, hfours, hcenturies, hera]
  omega

/-- R150's quotient gives the year of the era that holds the day `n` of the era: its corrections take out the leap days.
`n / 36524 - n / 146096` is the century, where the last day of the era counts one too many in both quotients. -/
theorem yearOfEra_eq {n y : Nat} (hy : y < 400) (h : yearStart y ≤ n) (h' : n < yearStart (y + 1)) :
    (n - n / 1460 + n / 36524 - n / 146096) / 365 = y := by
  obtain ⟨c, q, j, rfl, hc, hq, hj⟩ : ∃ c q j, y = 100 * c + (4 * q + j) ∧ c < 4 ∧ q < 25 ∧ j < 4 :=
    ⟨y / 100, y % 100 / 4, y % 4, by omega, by omega, by omega, by omega⟩
  obtain ⟨e, rfl⟩ := Nat.exists_eq_add_of_le h
  have he : e ≤ 365 ∧ (e = 365 → j = 3 ∧ (q = 24 → c = 3)) := by
    rw [yearStart_succ, Nat.add_lt_add_iff_left] at h'
    split_ifs at h' with hleap
    · obtain ⟨hfour, hhundred⟩ := isLeap_iff.1 hleap
      omega
    · omega
  clear h h'
  rw [yearStart_of_parts hc hq hj]
  by_cases hlast : c = 3 ∧ q = 24 ∧ j = 3 ∧ e = 365
  · obtain ⟨rfl, rfl, rfl, rfl⟩ := hlast
    rfl
  · have hcentury : (36524 * c + (1461 * q + 365 * j) + e) / 36524 = c := by omega
    have hera : (36524 * c + (1461 * q + 365 * j) + e) / 146096 = 0 := by omega
    have hfours : (36524 * c + (1461 * q + 365 * j) + e) / 1460
        = 25 * c + q + (24 * c + q + 365 * j + e) / 1460 := by omega
    rw [hcentury, hera, hfours]
    omega

/-- R150's quotient gives the month that holds a day of the year. -/
theorem monthOfYear_eq {k d : Nat} (h : monthStart k + d < monthStart (k + 1)) :
    (5 * (monthStart k + d) + 2) / 153 = k := by
  unfold monthStart at h ⊢
  omega

/-- A twelfth month would begin on day 367 of its year. -/
theorem IsMarchDate.lt_twelve {n y k d : Nat} (h : IsMarchDate n y k d) : k < 12 := by
  obtain ⟨rfl, -, hy⟩ := h
  rw [yearStart_succ, Nat.add_lt_add_iff_left] at hy
  unfold monthStart at hy
  split_ifs at hy <;> omega

/-- An era is 400 years of 146097 days together. -/
theorem yearStart_add_era (a y : Nat) : yearStart (400 * a + y) = 146097 * a + yearStart y := by
  unfold yearStart
  omega

/-- R150's `CivilFromDays` finds the date of a day. -/
theorem civilFromDays_eq {days y k d : Nat} (h : IsMarchDate (days + 719468) y k d) :
    civilFromDays days = (y + (if k < 10 then 0 else 1), if k < 10 then k + 3 else k - 9, d + 1) := by
  have hk := h.lt_twelve
  obtain ⟨hn, hd, hy⟩ := h
  obtain ⟨a, b, rfl, hb⟩ : ∃ a b, y = 400 * a + b ∧ b < 400 := ⟨y / 400, y % 400, by omega, by omega⟩
  rw [yearStart_add_era] at hn
  rw [Nat.add_assoc, yearStart_add_era, hn, Nat.add_assoc, Nat.add_lt_add_iff_left] at hy
  have hend : yearStart (b + 1) ≤ yearStart 400 := yearStart_strictMono.monotone hb
  have h400 : yearStart 400 = 146097 := rfl
  have hera : (days + 719468) / 146097 = a := by omega
  have hdoe : days + 719468 - a * 146097 = yearStart b + (monthStart k + d) := by omega
  have hyoe := yearOfEra_eq hb (Nat.le_add_right _ _) hy
  have hyear : 365 * b + b / 4 - b / 100 = yearStart b := by unfold yearStart; omega
  simp only [civilFromDays, hera, hdoe, hyoe, hyear, Nat.add_sub_cancel_left, monthOfYear_eq hd]
  have hday : monthStart k + d - (153 * k + 2) / 5 = d := Nat.add_sub_cancel_left _ _
  rw [hday]
  simp only [Prod.mk.injEq, and_true]
  split_ifs <;> omega

/-- The months have the lengths that `DaysInMonth` gives them: a month ends where the next begins, and February with its
March year. -/
theorem le_daysInMonth_iff {y m d : Nat} (hy : 1 ≤ y) (hm : 1 ≤ m) (hm' : m ≤ 12) :
    d ≤ daysInMonth y m ↔ monthStart (marchMonth m) + d ≤ monthStart (marchMonth m + 1)
      ∧ yearStart (marchYear y m) + (monthStart (marchMonth m) + d) ≤ yearStart (marchYear y m + 1) := by
  obtain ⟨z, rfl⟩ := Nat.exists_eq_add_of_le' hy
  rw [yearStart_succ, Nat.add_le_add_iff_left]
  by_cases hfeb : m = 2
  · subst hfeb
    have hyear : marchYear (z + 1) 2 + 1 = z + 1 := rfl
    have hmonth : marchMonth 2 = 11 := rfl
    have hlength : daysInMonth (z + 1) 2 = if isLeap (z + 1) then 29 else 28 := rfl
    rw [hyear, hmonth, hlength]
    unfold monthStart
    split_ifs <;> omega
  · have hlength : monthStart (marchMonth m) + daysInMonth (z + 1) m = monthStart (marchMonth m + 1)
        ∧ monthStart (marchMonth m + 1) ≤ 337 := by
      rcases Nat.lt_or_gt_of_ne hfeb with hjan | hmar
      · interval_cases m
        exact ⟨rfl, by decide⟩
      · interval_cases m <;> exact ⟨rfl, by decide⟩
    split_ifs <;> omega

theorem IsDate.day_le {y m d : Nat} (h : IsDate y m d) (hy : 1 ≤ y) : d ≤ 31 := by
  obtain ⟨hm, hm', -, hd⟩ := h
  obtain ⟨hmonth, -⟩ := (le_daysInMonth_iff hy hm hm').1 hd
  unfold monthStart at hmonth
  omega

/-- R151's `DaysFromCivil` sums the days before the year, before the month and before the day. -/
theorem daysFromCivil_succ (y m d : Nat) : daysFromCivil y m (d + 1) =
    yearStart (marchYear y m) + (monthStart (marchMonth m) + d) - 719468 := by
  unfold daysFromCivil marchYear marchMonth monthStart
  generalize (if m ≤ 2 then y - 1 else y) = z
  dsimp only
  obtain ⟨a, b, rfl, hb⟩ : ∃ a b, z = 400 * a + b ∧ b < 400 := ⟨z / 400, z % 400, by omega, by omega⟩
  have hera : (400 * a + b) / 400 = a := by omega
  have hyear : 400 * a + b - a * 400 = b := by omega
  have hstart : b * 365 + b / 4 - b / 100 = yearStart b := by unfold yearStart; omega
  rw [hera, hyear, hstart, yearStart_add_era, Nat.mul_comm a, Nat.add_succ_sub_one, Nat.add_assoc]

/-- A date from 1970 on is a date of the March count, past the 719468 days before the epoch. -/
theorem IsDate.isMarchDate {y m d : Nat} (h : IsDate y m (d + 1)) (hy : 1970 ≤ y) :
    IsMarchDate (daysFromCivil y m (d + 1) + 719468) (marchYear y m) (marchMonth m) d := by
  obtain ⟨hm, hm', -, hd⟩ := h
  obtain ⟨hmonth, hyear⟩ := (le_daysInMonth_iff (by omega) hm hm').1 hd
  have hepoch : 719468 ≤ yearStart (marchYear y m) + monthStart (marchMonth m) := by
    by_cases hjan : m ≤ 2
    · calc 719468 ≤ yearStart 1969 + monthStart 10 := by decide
        _ ≤ yearStart (marchYear y m) + monthStart (marchMonth m) :=
          Nat.add_le_add (yearStart_strictMono.monotone (by rw [marchYear, if_pos hjan]; omega))
            (monthStart_strictMono.monotone (by rw [marchMonth, if_neg (Nat.not_lt.2 hjan)]; omega))
    · calc 719468 ≤ yearStart 1970 := by decide
        _ ≤ yearStart (marchYear y m) := yearStart_strictMono.monotone (by rwa [marchYear, if_neg hjan])
        _ ≤ _ := Nat.le_add_right _ _
  have hn := daysFromCivil_succ y m d
  exact ⟨by omega, by omega, by omega⟩

/-- R150 finds the date that R151 counted. -/
theorem civilFromDays_daysFromCivil {y m d : Nat} (h : IsDate y m d) (hy : 1970 ≤ y) :
    civilFromDays (daysFromCivil y m d) = (y, m, d) := by
  obtain ⟨hm, hm', hd, -⟩ := id h
  obtain ⟨d, rfl⟩ := Nat.exists_eq_add_of_le' hd
  rw [civilFromDays_eq (h.isMarchDate hy)]
  unfold marchYear marchMonth
  simp only [Prod.mk.injEq, and_true]
  split_ifs <;> omega

/-- A month of the March count is a month of a year, of 1970 or later when it holds a day from the epoch on. -/
theorem exists_marchYear_marchMonth {n y k d : Nat} (h : IsMarchDate (n + 719468) y k d) :
    ∃ z m, 1970 ≤ z ∧ 1 ≤ m ∧ m ≤ 12 ∧ marchYear z m = y ∧ marchMonth m = k := by
  have hk := h.lt_twelve
  obtain ⟨hn, hd, hy⟩ := h
  have h1969 : yearStart 1969 = 719162 := by decide
  by_cases hk' : k < 10
  · refine ⟨y, k + 3, ?_, by omega, by omega, if_neg (by omega), if_pos (by omega)⟩
    have hmonth : monthStart (k + 1) ≤ monthStart 10 := monthStart_strictMono.monotone hk'
    have h10 : monthStart 10 = 306 := rfl
    exact yearStart_strictMono.lt_iff_lt.1 (show yearStart 1969 < yearStart y by omega)
  · have hm : k - 9 ≤ 2 := by omega
    refine ⟨y + 1, k - 9, ?_, by omega, by omega, if_pos hm, ?_⟩
    · exact yearStart_strictMono.lt_iff_lt.1 (show yearStart 1969 < yearStart (y + 1) by omega)
    · rw [marchMonth, if_neg (Nat.not_lt.2 hm)]
      omega

/-- R151 counts some date to every day from the epoch on. -/
theorem exists_isDate (n : Nat) : ∃ y m d, IsDate y m d ∧ 1970 ≤ y ∧ daysFromCivil y m d = n := by
  obtain ⟨y, k, d, h⟩ := exists_isMarchDate (n + 719468)
  obtain ⟨z, m, hz, hm, hm', rfl, rfl⟩ := exists_marchYear_marchMonth h
  obtain ⟨hn, hd, hy⟩ := h
  have hlength : d + 1 ≤ daysInMonth z m := (le_daysInMonth_iff (by omega) hm hm').2 ⟨hd, by omega⟩
  refine ⟨z, m, d + 1, ⟨hm, hm', by omega, hlength⟩, hz, ?_⟩
  rw [daysFromCivil_succ]
  omega

/-- A year has the days from its 1 January, month 10 of the March year before, to the next. -/
theorem IsDate.year_bounds {y m d : Nat} (h : IsDate y m d) (hy : 1970 ≤ y) :
    yearStart (y - 1) + 306 ≤ daysFromCivil y m d + 719468 ∧ daysFromCivil y m d + 719468 < yearStart y + 306 := by
  obtain ⟨hm, hm', hd, -⟩ := id h
  obtain ⟨d, rfl⟩ := Nat.exists_eq_add_of_le' hd
  obtain ⟨hn, hmonth, hyear⟩ := h.isMarchDate hy
  have h10 : monthStart 10 = 306 := rfl
  by_cases hjan : m ≤ 2
  · have hle : monthStart 10 ≤ monthStart (marchMonth m) :=
      monthStart_strictMono.monotone (by rw [marchMonth, if_neg (Nat.not_lt.2 hjan)]; omega)
    rw [marchYear, if_pos hjan] at hn hyear
    rw [Nat.sub_add_cancel (by omega)] at hyear
    omega
  · have hle : monthStart (marchMonth m + 1) ≤ monthStart 10 :=
      monthStart_strictMono.monotone (by rw [marchMonth, if_pos (Nat.lt_of_not_le hjan)]; omega)
    have hlt : yearStart (y - 1 + 1) = yearStart (y - 1) + if isLeap (y - 1 + 1) then 366 else 365 := yearStart_succ _
    rw [Nat.sub_add_cancel (by omega)] at hlt
    rw [marchYear, if_neg hjan] at hn
    split_ifs at hlt <;> omega

/-- R153's domain ends with the last day of the year 9999. -/
theorem daysFromCivil_le_iff {y m d : Nat} (h : IsDate y m d) (hy : 1970 ≤ y) :
    daysFromCivil y m d ≤ 2932896 ↔ y ≤ 9999 := by
  obtain ⟨hfirst, hlast⟩ := h.year_bounds hy
  have h9999 : yearStart 9999 = 3652059 := by decide
  constructor <;> intro hle
  · have := yearStart_strictMono.lt_iff_lt.1 (show yearStart (y - 1) < yearStart 9999 by omega)
    omega
  · have := yearStart_strictMono.monotone hle
    omega

/-- R150's date of a day on or after the epoch is a date by R151's ranges, and has the day by R151's count. -/
theorem civilFromDays_spec (n : Nat) :
    IsDate (civilFromDays n).1 (civilFromDays n).2.1 (civilFromDays n).2.2 ∧ 1970 ≤ (civilFromDays n).1
      ∧ daysFromCivil (civilFromDays n).1 (civilFromDays n).2.1 (civilFromDays n).2.2 = n := by
  obtain ⟨y, m, d, hdate, hy, rfl⟩ := exists_isDate n
  rw [civilFromDays_daysFromCivil hdate hy]
  exact ⟨hdate, hy, rfl⟩

end Sys2Proof.Machine
end

section
/-!
The fields of a timestamp (44_timestamp.md): the fields of an instant count its milliseconds (R150, R151), and a text
matches R151's pattern exactly when it is the one R150 writes for the fields it is read as.
-/

namespace Sys2Proof.Machine

/-- The date and time R150 computes for `t`. -/
def instantFields (t : Nat) : Fields where
  y := (civilFromDays (t / 86400000)).1
  m := (civilFromDays (t / 86400000)).2.1
  d := (civilFromDays (t / 86400000)).2.2
  hh := t % 86400000 / 3600000
  mm := t % 86400000 / 60000 % 60
  ss := t % 86400000 / 1000 % 60
  ms := t % 86400000 % 1000

/-- The 23 characters R150 writes for a date and time. -/
def fieldsText (q : Fields) : Text :=
  dateText q.y q.m q.d ++ 'T' :: (padDigits 2 q.hh ++ ':' :: (padDigits 2 q.mm ++ ':' ::
    (padDigits 2 q.ss ++ '.' :: padDigits 3 q.ms)))

theorem fieldsOk_iff {q : Fields} :
    fieldsOk q = true ↔ IsDate q.y q.m q.d ∧ q.hh ≤ 23 ∧ q.mm ≤ 59 ∧ q.ss ≤ 59 := by
  simp only [fieldsOk, decide_eq_true_eq, IsDate, and_assoc]

theorem tsText_eq (c : Config) (t : Nat) : tsText c t = fieldsText (instantFields t) ++ c.tsPad := by
  simp only [tsText, timeText, fieldsText, instantFields, List.append_assoc, List.cons_append]

/-- R150's fields of an instant are in R151's ranges, and R151 counts them back to the instant. -/
theorem instantFields_spec (t : Nat) :
    fieldsOk (instantFields t) = true ∧ 1970 ≤ (instantFields t).y ∧ (instantFields t).ms < 1000
      ∧ fieldsMillis (instantFields t) = t := by
  obtain ⟨hdate, hy, hdays⟩ := civilFromDays_spec (t / 86400000)
  have hday : t % 86400000 < 86400000 := Nat.mod_lt _ (by decide)
  have hsplit := Nat.div_add_mod t 86400000
  refine ⟨fieldsOk_iff.2 ⟨hdate, ?_⟩, hy, Nat.mod_lt _ (by decide), ?_⟩
  · simp only [instantFields]
    omega
  · simp only [fieldsMillis, instantFields]
    rw [hdays]
    omega

/-- R150 finds the fields that R151 counted. -/
theorem instantFields_fieldsMillis {q : Fields} (hq : fieldsOk q = true) (hy : 1970 ≤ q.y) (hms : q.ms < 1000) :
    instantFields (fieldsMillis q) = q := by
  obtain ⟨hdate, hhh, hmm, hss⟩ := fieldsOk_iff.1 hq
  have hdays : fieldsMillis q / 86400000 = daysFromCivil q.y q.m q.d := by unfold fieldsMillis; omega
  have hclock : fieldsMillis q % 86400000 = q.hh * 3600000 + q.mm * 60000 + q.ss * 1000 + q.ms := by
    unfold fieldsMillis; omega
  have hh : fieldsMillis q % 86400000 / 3600000 = q.hh := by omega
  have mm : fieldsMillis q % 86400000 / 60000 % 60 = q.mm := by omega
  have ss : fieldsMillis q % 86400000 / 1000 % 60 = q.ss := by omega
  have ms : fieldsMillis q % 86400000 % 1000 = q.ms := by omega
  rw [instantFields, hdays, civilFromDays_daysFromCivil hdate hy, hh, mm, ss, ms]

/-- R153's domain is the years to 9999. -/
theorem fieldsMillis_le_iff {q : Fields} (hq : fieldsOk q = true) (hy : 1970 ≤ q.y) (hms : q.ms < 1000) :
    fieldsMillis q ≤ tsMax ↔ q.y ≤ 9999 := by
  obtain ⟨hdate, hhh, hmm, hss⟩ := fieldsOk_iff.1 hq
  rw [← daysFromCivil_le_iff hdate hy]
  unfold fieldsMillis tsMax
  omega

theorem eq_digitChar_of_digitVal {ch : Char} {d : Nat} (h : digitVal ch = some d) : ch = digitChar d ∧ d < 10 := by
  unfold digitVal at h
  split_ifs at h with hch
  cases h
  have hval : 48 + (ch.toNat - 48) % 10 = ch.toNat := by omega
  exact ⟨by rw [digitChar, hval, Char.ofNat_toNat], by omega⟩

/-- Digits are the padded decimal of their value. -/
theorem eq_padDigits_of_readDigits {x : Text} {k : Nat} (h : readDigits x = some k) :
    x = padDigits x.length k ∧ k < 10 ^ x.length := by
  induction x using List.reverseRecOn generalizing k with
  | nil => cases h; exact ⟨rfl, Nat.one_pos⟩
  | append_singleton x ch ih =>
    obtain ⟨m, d, hx, hch, rfl⟩ := readDigits_append_singleton_eq_some_iff.1 h
    obtain ⟨rfl, hd⟩ := eq_digitChar_of_digitVal hch
    obtain ⟨hpad, hm⟩ := ih hx
    have hdiv : (10 * m + d) / 10 = m := by omega
    have hmod : (10 * m + d) % 10 = d % 10 := by omega
    rw [List.length_append, List.length_singleton, pow_succ, padDigits, hdiv, ← hpad, digitChar, digitChar, hmod]
    exact ⟨rfl, by omega⟩

theorem slice_eq_padDigits {p : Text} {lo n k : Nat} (h : readDigits (slice p lo n) = some k)
    (hlen : lo + n ≤ p.length) : slice p lo n = padDigits n k ∧ k < 10 ^ n := by
  have hslice : (slice p lo n).length = n := by
    rw [slice, List.length_take, List.length_drop]
    omega
  simpa only [hslice] using eq_padDigits_of_readDigits h

/-- A field, its separator and what follows. -/
theorem drop_eq_slice_append {p : Text} {lo n : Nat} {ch : Char} (h : p[lo + n]? = some ch) :
    p.drop lo = slice p lo n ++ ch :: p.drop (lo + n + 1) := by
  obtain ⟨hlt, hch⟩ := List.getElem?_eq_some_iff.1 h
  rw [← hch, ← List.drop_eq_getElem_cons hlt, ← List.drop_drop, slice, List.take_append_drop]

theorem readFields_eq_some_iff {p : Text} {q : Fields} : readFields p = some q ↔
    readDigits (slice p 0 4) = some q.y ∧ readDigits (slice p 5 2) = some q.m ∧ readDigits (slice p 8 2) = some q.d
      ∧ readDigits (slice p 11 2) = some q.hh ∧ readDigits (slice p 14 2) = some q.mm
      ∧ readDigits (slice p 17 2) = some q.ss ∧ readDigits (slice p 20 3) = some q.ms
      ∧ separatorsOk p = true := by
  rcases q with ⟨y, m, d, hh, mm, ss, ms⟩
  simp only [readFields, Option.bind_eq_bind, Option.bind_eq_some_iff, Option.ite_none_right_eq_some, Option.some_inj,
    Fields.mk.injEq]
  constructor
  · rintro ⟨_, hy, _, hm, _, hd, _, hhh, _, hmm, _, hss, _, hms, hsep, rfl, rfl, rfl, rfl, rfl, rfl, rfl⟩
    exact ⟨hy, hm, hd, hhh, hmm, hss, hms, hsep⟩
  · rintro ⟨hy, hm, hd, hhh, hmm, hss, hms, hsep⟩
    exact ⟨_, hy, _, hm, _, hd, _, hhh, _, hmm, _, hss, _, hms, hsep, rfl, rfl, rfl, rfl, rfl, rfl, rfl⟩

theorem length_fieldsText (q : Fields) : (fieldsText q).length = 23 := rfl

/-- What R150 writes is read back (R151). -/
theorem readFields_fieldsText {q : Fields} (hq : fieldsOk q = true) (hy : 1970 ≤ q.y) (hy' : q.y ≤ 9999)
    (hms : q.ms < 1000) : readFields (fieldsText q) = some q := by
  obtain ⟨hdate, hhh, hmm, hss⟩ := fieldsOk_iff.1 hq
  have hd := hdate.day_le (by omega)
  obtain ⟨hm, hm', -, -⟩ := hdate
  have hread (n : Nat) {k : Nat} (hk : k < 10 ^ n) : readDigits (padDigits n k) = some k := by
    rw [readDigits_padDigits, Nat.mod_eq_of_lt hk]
  exact readFields_eq_some_iff.2 ⟨hread 4 (by omega), hread 2 (by omega), hread 2 (by omega), hread 2 (by omega),
    hread 2 (by omega), hread 2 (by omega), hread 3 (by omega), rfl⟩

/-- A text that matches R151's pattern is what R150 writes for the fields read. -/
theorem eq_fieldsText_of_readFields {p : Text} {q : Fields} (hp : p.length = 23) (h : readFields p = some q) :
    p = fieldsText q ∧ q.y ≤ 9999 ∧ q.ms < 1000 := by
  obtain ⟨hy, hm, hd, hhh, hmm, hss, hms, hsep⟩ := readFields_eq_some_iff.1 h
  simp only [separatorsOk, Bool.and_eq_true, beq_iff_eq] at hsep
  obtain ⟨⟨⟨⟨⟨h4, h7⟩, h10⟩, h13⟩, h16⟩, h19⟩ := hsep
  obtain ⟨hy, hy'⟩ := slice_eq_padDigits hy (by omega)
  obtain ⟨hm, -⟩ := slice_eq_padDigits hm (by omega)
  obtain ⟨hd, -⟩ := slice_eq_padDigits hd (by omega)
  obtain ⟨hhh, -⟩ := slice_eq_padDigits hhh (by omega)
  obtain ⟨hmm, -⟩ := slice_eq_padDigits hmm (by omega)
  obtain ⟨hss, -⟩ := slice_eq_padDigits hss (by omega)
  obtain ⟨hms, hms'⟩ := slice_eq_padDigits hms (by omega)
  have hend : p.drop 20 = slice p 20 3 := (List.take_of_length_le (by rw [List.length_drop]; omega)).symm
  refine ⟨?_, by omega, by omega⟩
  calc p = p.drop 0 := rfl
    _ = slice p 0 4 ++ '-' :: (slice p 5 2 ++ '-' :: (slice p 8 2 ++ 'T' :: (slice p 11 2 ++ ':' :: (slice p 14 2
          ++ ':' :: (slice p 17 2 ++ '.' :: slice p 20 3))))) := by
      rw [drop_eq_slice_append (n := 4) h4, drop_eq_slice_append (n := 2) h7, drop_eq_slice_append (n := 2) h10,
        drop_eq_slice_append (n := 2) h13, drop_eq_slice_append (n := 2) h16, drop_eq_slice_append (n := 2) h19, hend]
    _ = fieldsText q := by
      rw [hy, hm, hd, hhh, hmm, hss, hms]
      rfl

/-- The fields R150 writes for an instant of the domain. -/
theorem readFields_fieldsText_instantFields {t : Nat} (ht : t ≤ tsMax) :
    readFields (fieldsText (instantFields t)) = some (instantFields t) ∧ (instantFields t).y ≤ 9999 := by
  obtain ⟨hok, hy, hms, hmillis⟩ := instantFields_spec t
  have hy' := (fieldsMillis_le_iff hok hy hms).1 (hmillis.le.trans ht)
  exact ⟨readFields_fieldsText hok hy hy' hms, hy'⟩

end Sys2Proof.Machine
end

section
/-! What R151's tests come to, one equation for each, and the inversion of a text that decodes (44_timestamp.md). -/

namespace Sys2Proof.Machine

/-- R151's second test. -/
def PaddingOk (c : Config) (x : Text) : Prop := c.tsSuffixCheck = .strict → x.drop 23 = tsZeros

variable {c : Config} {x : Text} {q : Fields}

theorem decodeTimestamp_badLength (h : x.length ≠ 29) : decodeTimestamp c x = .formatError .badLength :=
  if_pos h

theorem decodeTimestamp_badPadding (hx : x.length = 29) (hc : c.tsSuffixCheck = .strict) (h : x.drop 23 ≠ tsZeros) :
    decodeTimestamp c x = .formatError .badPadding := by
  rw [decodeTimestamp, if_neg (not_not.2 hx), if_pos ⟨hc, h⟩]

/-- Past length and padding, the pattern decides. -/
theorem decodeTimestamp_badPrefix (hx : x.length = 29) (hpad : PaddingOk c x) (h : readFields (x.take 23) = none) :
    decodeTimestamp c x = .formatError .badPrefix := by
  rw [decodeTimestamp, if_neg (not_not.2 hx), if_neg fun hne => hne.2 (hpad hne.1), h]

theorem decodeTimestamp_of_readFields (hx : x.length = 29) (hpad : PaddingOk c x)
    (h : readFields (x.take 23) = some q) :
    decodeTimestamp c x = if !fieldsOk q then .formatError .badField
      else if q.y < 1970 then .outOfDomain else .millis (fieldsMillis q) := by
  rw [decodeTimestamp, if_neg (not_not.2 hx), if_neg fun hne => hne.2 (hpad hne.1), h]

theorem decodeTimestamp_badField (hx : x.length = 29) (hpad : PaddingOk c x) (h : readFields (x.take 23) = some q)
    (hq : fieldsOk q = false) : decodeTimestamp c x = .formatError .badField := by
  rw [decodeTimestamp_of_readFields hx hpad h, hq]
  rfl

theorem decodeTimestamp_outOfDomain (hx : x.length = 29) (hpad : PaddingOk c x)
    (h : readFields (x.take 23) = some q) (hq : fieldsOk q = true) (hy : q.y < 1970) :
    decodeTimestamp c x = .outOfDomain := by
  rw [decodeTimestamp_of_readFields hx hpad h, hq]
  exact if_pos hy

theorem decodeTimestamp_millis (hx : x.length = 29) (hpad : PaddingOk c x) (h : readFields (x.take 23) = some q)
    (hq : fieldsOk q = true) (hy : 1970 ≤ q.y) : decodeTimestamp c x = .millis (fieldsMillis q) := by
  rw [decodeTimestamp_of_readFields hx hpad h, hq]
  exact if_neg (Nat.not_lt.2 hy)

/-- Only a text that passes every test decodes. -/
theorem exists_fields_of_decodeTimestamp {t : Nat} (h : decodeTimestamp c x = .millis t) :
    x.length = 29 ∧ PaddingOk c x ∧
      ∃ q, readFields (x.take 23) = some q ∧ fieldsOk q = true ∧ 1970 ≤ q.y ∧ fieldsMillis q = t := by
  by_cases hx : x.length = 29
  case neg => rw [decodeTimestamp_badLength hx] at h; cases h
  by_cases hpad : PaddingOk c x
  case neg =>
    obtain ⟨hc, hne⟩ := Classical.not_imp.1 hpad
    rw [decodeTimestamp_badPadding hx hc hne] at h; cases h
  cases hq : readFields (x.take 23) with
  | none => rw [decodeTimestamp_badPrefix hx hpad hq] at h; cases h
  | some q =>
    rw [decodeTimestamp_of_readFields hx hpad hq] at h
    split_ifs at h with hok hy
    exact ⟨hx, hpad, q, rfl, by simpa using hok, Nat.le_of_not_lt hy, TsOutcome.millis.inj h⟩

/-- TS_ENCODE on the domain, by its fields. -/
theorem encodeTimestamp_eq {t : Nat} (ht : t ≤ tsMax) :
    encodeTimestamp c t = some (fieldsText (instantFields t) ++ c.tsPad) := by
  rw [encodeTimestamp_of_le ht, tsText_eq]

/-- A text that decodes is R150's text for its instant but for the padding. -/
theorem encodeTimestamp_of_decodeTimestamp {t : Nat} (h : decodeTimestamp c x = .millis t) :
    encodeTimestamp c t = some (x.take 23 ++ c.tsPad) := by
  obtain ⟨hx, -, q, hread, hok, hy, rfl⟩ := exists_fields_of_decodeTimestamp h
  obtain ⟨htext, hy', hms⟩ := eq_fieldsText_of_readFields (by rw [List.length_take, hx]; rfl) hread
  rw [encodeTimestamp_eq ((fieldsMillis_le_iff hok hy hms).2 hy'), instantFields_fieldsMillis hok hy hms, ← htext]

end Sys2Proof.Machine
end

section
/-! The obligations of 44_timestamp.md. -/

namespace Sys2Proof.Proofs

open Sys2Proof.Machine

/-- Settles O24: R150's fields of the instant, as it writes them. -/
theorem tsEncodeNamesTheInstant : Obligations.TsEncodeNamesTheInstant := by
  intro s t hl hp h0 hle
  obtain ⟨t, rfl⟩ := Int.eq_ofNat_of_zero_le h0
  have ht : t ≤ tsMax := Int.ofNat_le.1 hle
  obtain ⟨hok, hy, -, hmillis⟩ := instantFields_spec t
  obtain ⟨hread, hy'⟩ := readFields_fieldsText_instantFields ht
  exact ⟨fieldsText (instantFields t), instantFields t, tsEncode_next hl hp (encodeTimestamp_eq ht),
    length_fieldsText _, hread, hok, hy, hy', congrArg Nat.cast hmillis⟩

/-- Settles O26: the text written for an instant passes R151's tests, and its fields count the instant. -/
theorem tsDecodeOfEncode : Obligations.TsDecodeOfEncode := by
  intro c t x hpad ht henc
  obtain ⟨hok, hy, -, hmillis⟩ := instantFields_spec t
  obtain ⟨hread, -⟩ := readFields_fieldsText_instantFields ht
  rw [encodeTimestamp_eq ht, hpad] at henc
  cases henc
  exact (decodeTimestamp_millis (x := fieldsText (instantFields t) ++ _) rfl (fun _ => rfl) hread hok hy).trans
    (congrArg _ hmillis)

/-- Settles O27: encoding changes nothing but the padding. -/
theorem tsEncodeOfDecode : Obligations.TsEncodeOfDecode := by
  intro c t x hpad h
  have hiff : encodeTimestamp c t = some x ↔ x.drop 23 = ['0', '0', '0', '0', '0', '0'] := by
    rw [encodeTimestamp_of_decodeTimestamp h, hpad, Option.some_inj]
    calc x.take 23 ++ ['0', '0', '0', '0', '0', '0'] = x
        ↔ x.take 23 ++ ['0', '0', '0', '0', '0', '0'] = x.take 23 ++ x.drop 23 := by rw [List.take_append_drop]
      _ ↔ x.drop 23 = ['0', '0', '0', '0', '0', '0'] := (List.append_right_inj _).trans eq_comm
  obtain ⟨-, hzeros, -⟩ := exists_fields_of_decodeTimestamp h
  exact ⟨hiff, fun hc => hiff.2 (hzeros hc)⟩

/-- Settles O25: each test of R151 in its place, with TS_DECODE's answer to it. -/
theorem tsDecodeTestsInOrder : Obligations.TsDecodeTestsInOrder := by
  intro s x hl hp hascii
  have hout := tsDecodeOutcome_of_ascii s.cfg hascii
  refine ⟨fun hx => ?_, fun hx hc hne => ?_, fun hx hpad => ⟨fun hread => ?_, fun q hread => ⟨fun hq => ?_,
    fun hq hy => ?_, fun hq hy => ?_⟩⟩⟩
  · exact tsDecode_formatError hl hp (hout.trans (decodeTimestamp_badLength hx))
  · exact tsDecode_formatError hl hp (hout.trans (decodeTimestamp_badPadding hx hc hne))
  · exact tsDecode_formatError hl hp (hout.trans (decodeTimestamp_badPrefix hx hpad hread))
  · exact tsDecode_formatError hl hp (hout.trans (decodeTimestamp_badField hx hpad hread hq))
  · exact tsDecode_outOfDomain hl hp (hout.trans (decodeTimestamp_outOfDomain hx hpad hread hq hy))
  · exact tsDecode_millis hl hp (hout.trans (decodeTimestamp_millis hx hpad hread hq hy))

/-- Settles O28: `encodeTimestamp` has a text exactly on the domain, and a year before 1970 ends outside it. -/
theorem tsDomainIsRefusedOutside : Obligations.TsDomainIsRefusedOutside := by
  intro s hl hp
  refine ⟨fun t ht => tsEncode_refused hl hp (if_neg ?_),
    fun t h0 hle => ⟨_, tsEncode_next hl hp (if_pos ⟨h0, hle⟩)⟩,
    fun x q hascii hx hpad hread hq hy => ?_⟩
  · rintro ⟨h0, hle⟩
    exact ht.elim (Int.not_lt.2 h0) (Int.not_lt.2 hle)
  · exact tsDecode_outOfDomain hl hp
      ((tsDecodeOutcome_of_ascii s.cfg hascii).trans (decodeTimestamp_outOfDomain hx hpad hread hq hy))

/-- Settles O59: the free value is a time or a format error, and TS_DECODE answers it. -/
theorem nonAsciiTextHasFreeResult : Obligations.NonAsciiTextHasFreeResult := by
  intro s x hl hp hascii
  rcases tsDecodeOutcome_of_not_ascii s.cfg hascii with ⟨t, hfree, hout⟩ | ⟨e, hfree, hout⟩
  · exact .inl ⟨t, hfree, tsDecode_millis hl hp hout⟩
  · exact .inr ⟨e, hfree, tsDecode_formatError hl hp hout⟩

end Sys2Proof.Proofs
end

section
/-!
The next preamble (70_reset_and_hazards.md R197): from (SYNCING, 0) `SYNC_THRESHOLD` bytes leave the buffer as it was,
and as many markers and a non-marker store that byte in cell 0.
-/

namespace Sys2Proof.Safety

open Sys2Proof.Machine

/-- The rows of SYNCING store nothing (R80 to R82). -/
theorem rowNext_fbuf_of_syncing {b : Byte} {s : State} {row : ByteRow} (n : Millis) (hp : s.phase = .syncing)
    (h : rowHolds s.ctrl b row = true) : (rowNext b n s row).fbuf = s.fbuf := by
  cases row with
  | markCount | markLock | other | markSkip => rfl
  | start => exact nomatch hp.symm.trans (rowHolds_start_iff.1 h).1
  | append => exact nomatch hp.symm.trans (rowHolds_append_iff.1 h).1
  | complete => exact nomatch hp.symm.trans (rowHolds_complete_iff.1 h).1

/-- All bytes but the last are too few to lock, so the last one still finds SYNCING. -/
theorem exists_runBytes_fbuf_eq {w : List InByte} {s : State} (hl : s.cfg.legal = true) (hp : s.phase = .syncing)
    (hcnt : s.syncCnt = 0) (hlen : w.length ≤ s.cfg.syncThreshold) :
    ∃ t outs, runBytes w s = .next (t, outs) ∧ t.fbuf = s.fbuf := by
  rcases List.eq_nil_or_concat' w with rfl | ⟨v, x, rfl⟩
  · exact ⟨s, [], rfl, rfl⟩
  · have hrun : ¬ List.replicate s.cfg.syncThreshold s.cfg.syncMarker
        <:+: List.replicate s.syncCnt s.cfg.syncMarker ++ dataOf v := by
      intro h
      have hle : s.cfg.syncThreshold ≤ v.length := by simpa [hcnt, dataOf] using h.length_le
      rw [List.length_append, List.length_singleton] at hlen
      omega
    obtain ⟨t, ht, ⟨htp, -, htm⟩, -⟩ := exists_silentRun_of_no_markerRun hl hp hrun
    obtain ⟨row, hrow⟩ := exists_selectRow_eq_ok (c := t.ctrl) x.data (by rw [State.ctrl_phase, htp]; exact nofun)
    rw [selectRow_eq_ok_iff] at hrow
    exact ⟨_, _, runBytes_append_of_next ht (runBytes_singleton_of_holds (ht.cfg_eq ▸ hl) hrow),
      (rowNext_fbuf_of_syncing _ htp hrow).trans htm⟩

theorem exists_runBytes_preamble_start {pre : List InByte} {x : InByte} {s : State} (hl : s.cfg.legal = true)
    (hp : s.phase = .syncing) (hlen : s.cfg.syncThreshold ≤ pre.length)
    (hpre : ∀ p ∈ pre, p.data = s.cfg.syncMarker) (hx : x.data ≠ s.cfg.syncMarker) :
    ∃ t outs, runBytes (pre ++ [x]) s = .next (t, outs) ∧ t.fbuf = s.fbuf.write 0 x.data := by
  have hthreshold : 1 ≤ s.cfg.syncThreshold := (legal_iff.1 hl).1
  obtain ⟨t, ht, hts⟩ := exists_silentRun_markers_of_syncing hl hp hpre (by omega) (by omega)
  have htp : t.phase = .synced := congrArg Prod.fst hts
  have htm : t.fbuf = s.fbuf := congrArg (·.2.2.2) hts
  have hrow : rowHolds t.ctrl x.data .start = true :=
    rowHolds_start_iff.2 ⟨htp, fun he => hx (he.trans (congrArg _ ht.cfg_eq))⟩
  exact ⟨_, _, runBytes_append_of_next ht (runBytes_singleton_of_holds (ht.cfg_eq ▸ hl) hrow),
    congrArg (·.write 0 x.data) htm⟩

end Sys2Proof.Safety
end

section
/-!
RESET (70_reset_and_hazards.md R190) and the port-level step (R196), one equation for each kind of input.
-/

namespace Sys2Proof.Machine

/-- RESET goes on in every state the spec gives a meaning, and keeps only the parameters, `FBUF` and the queue. -/
theorem exec_reset_eq_next_iff {s t : State} : exec .reset s = .next t ↔ s.cfg.legal = true ∧ s.phase ≠ .reserved
    ∧ t = { s with phase := .syncing, syncCnt := 0, cursor := 0, out := Out.silent, reply := none } := by
  refine whenDefined_next.trans (and_congr_right' (and_congr_right' ?_))
  exact ⟨fun h => (Host.Outcome.next.inj h).symm, fun h => congrArg Host.Outcome.next h.symm⟩

theorem decodePort_of_rst {c : Ctrl} {p : PortIn} (hr : p.rst = 1) : decodePort c p = .ok .reset := if_pos hr

theorem decodePort_of_idle {c : Ctrl} {p : PortIn} (hr : p.rst = 0) (hv : p.inValid = 0) :
    decodePort c p = .ok .idle := by
  simp [decodePort, hr, hv]

theorem decodePort_of_byte {c : Ctrl} {p : PortIn} {row : ByteRow} (hr : p.rst = 0) (hv : p.inValid = 1)
    (h : selectRow c p.inData = .ok row) : decodePort c p = .ok (rowInstr p.inData p.nowMs row) := by
  simp [decodePort, hr, hv, h, Except.map]

theorem step_port {s : State} {p : PortIn} {rest : List Request} {i : Instr} (hl : s.cfg.legal = true)
    (hs : s.inputs = .port p :: rest) (hi : decodePort s.ctrl p = .ok i) : step s = exec i (s.setInputs rest) :=
  step_of_decode_ok hs ((decode_port (c := s.ctrl) p hl).trans hi)

end Sys2Proof.Machine
end

section
/-!
The output ports (70_reset_and_hazards.md R195) on the two kinds of output record: nothing, or a frame with its verdict.
-/

namespace Sys2Proof.Machine

/-- A verdict is never `EV_NONE`, which stands for no result (R32, R100). -/
theorem decodeFrame_event_ne_evNone (c : Config) (f : Frame) (n : Millis) : (decodeFrame c f n).event ≠ .evNone := by
  obtain h | h | h | h := decodeFrame_cases c f n <;> rw [h] <;> exact nofun

theorem eventCode_eq_zero_iff {e : FrameEvent} : eventCode e = 0 ↔ e = .evNone := by
  cases e <;> decide

theorem eventCode_eq_one_iff {e : FrameEvent} : eventCode e = 1 ↔ e = .evSample := by
  cases e <;> decide

/-- `smp_valid` follows the event alone. -/
theorem portOut_smpValid_iff (any : PortOut) (o : Out) :
    (portOut any o).smpValid = 1 ↔ (portOut any o).decEvent = 1 := by
  obtain ⟨f, result⟩ := o
  cases result with
  | none => simp [portOut, eventCode]
  | some r => simpa [portOut] using eventCode_eq_one_iff.symm

/-- After a step the output record is silent, or holds a frame and the verdict on it (R30). -/
theorem step_out {s t : State} (h : step s = .next t) :
    t.out = Out.silent ∨ ∃ f n, t.out = ⟨some f, some (decodeFrame s.cfg f n)⟩ := by
  obtain ⟨i, rs, hi⟩ := step_next h
  obtain ⟨-, hout⟩ | ⟨b, n, -, hout⟩ := exec_out hi
  · exact .inl hout
  · exact .inr ⟨_, n, hout⟩

end Sys2Proof.Machine
end

section
/-! The obligations of 70_reset_and_hazards.md. -/

namespace Sys2Proof.Proofs

open Sys2Proof.Machine Sys2Proof.Safety

/-- Settles O38: a completing step leaves SYNCING with count 0, from where `SYNC_THRESHOLD` bytes reach no row that stores;
a preamble and a non-marker reach START. -/
theorem bufferSurvivesTheNextPreamble : Obligations.BufferSurvivesTheNextPreamble := by
  intro s t b n h
  obtain ⟨hl, -, rfl⟩ := exec_rowInstr_eq_next_iff (row := .complete).1 h
  exact ⟨fun w hlen => exists_runBytes_fbuf_eq (s := rowNext b n s .complete) hl rfl rfl hlen,
    fun pre x hlen hpre hx =>
      exists_runBytes_preamble_start (s := rowNext b n s .complete) hl rfl hlen.ge hpre hx⟩

/-- Settles O9: the state after RESET, which depends on the configuration, `FBUF` and the queue alone. -/
theorem resetGivesFreshState : Obligations.ResetGivesFreshState := by
  refine ⟨fun s hl hp => exec_reset_eq_next_iff.2 ⟨hl, hp, rfl⟩, fun s t t₁ t₂ hcfg h₁ h₂ => ?_, fun s t h => ?_⟩
  · obtain ⟨-, -, rfl⟩ := exec_reset_eq_next_iff.1 h₁
    obtain ⟨-, -, rfl⟩ := exec_reset_eq_next_iff.1 h₂
    rw [hcfg]
  · obtain ⟨hl, -, rfl⟩ := exec_reset_eq_next_iff.1 h
    exact exec_reset_eq_next_iff.2 ⟨hl, nofun, rfl⟩

/-- Settles O40: the port-level decoder on each kind of input, and the refusal of the reserved phase. -/
theorem portStepFollowsInputs : Obligations.PortStepFollowsInputs := by
  intro s p rest hl hs
  refine ⟨fun hr => step_port hl hs (decodePort_of_rst hr), fun hr hv => step_port hl hs (decodePort_of_idle hr hv),
    fun hr hv hp => ?_, fun _ _ hp => step_port_of_reserved hl hp hs⟩
  obtain ⟨row, hrow⟩ := exists_selectRow_eq_ok (c := s.ctrl) p.inData hp
  exact ⟨row, hrow, step_port hl hs (decodePort_of_byte hr hv hrow)⟩

/-- Settles O47: in SYNCING the invariant asks for a count below the threshold and the cursor at 0. -/
theorem launchMeetsInvariant : Obligations.LaunchMeetsInvariant := by
  have hinv (s : State) (h : launch s) : StateInv s := by
    obtain ⟨hl, hp, hcnt, hcur, hmem⟩ := h
    exact (stateInv_iff_of_syncing hp).2 ⟨hl, ⟨hcnt ▸ Nat.zero_le _, hcur⟩, hmem⟩
  have hreset : launch State.reset := ⟨by decide, rfl, rfl, rfl, State.reset_fbuf_wf, nofun⟩
  exact ⟨hinv _ hreset, hreset, hinv⟩

/-- Settles O57: on a silent record no port is flagged valid; on a completed frame they show it and the verdict. -/
theorem portsShowTheOutput : Obligations.PortsShowTheOutput := by
  intro s t any h
  have hsmp := portOut_smpValid_iff any t.out
  obtain hout | ⟨f, n, hout⟩ := step_out h <;> rw [hout] at hsmp ⊢
  · exact ⟨rfl, ⟨nofun, nofun⟩, nofun, rfl, fun _ => rfl, nofun, hsmp, nofun⟩
  · refine ⟨rfl, ⟨fun _ => rfl, fun _ => rfl⟩, fun _ hf => Option.some.inj hf, rfl, nofun, ?_, hsmp, ?_⟩
    · rintro r ⟨⟩
      exact ⟨rfl, fun he => decodeFrame_event_ne_evNone s.cfg f n (eventCode_eq_zero_iff.1 he), rfl⟩
    · rintro r x ⟨⟩ hx
      simp [portOut, hx]

end Sys2Proof.Proofs
end
